-- ==== Sys2Proof/Word.lean ====
section
/-! DEFINITION. The byte of a cell and of frame memory, and `Table`: a fixed number of like things (32 windows, 16
originators, 8 trigger units …) as a list that carries the proof of its length, so that an index of the right range
always finds an entry and no statement needs a hypothesis about lengths. -/

namespace Sys2Proof

/-- One byte of a cell, a record or the frame memory. -/
abbrev Byte := BitVec 8

/-- A table of exactly `n` entries, entry 0 first. -/
structure Table (α : Type) (n : Nat) where
  rows : List α
  len : rows.length = n
  deriving DecidableEq, Repr

/-- Entry `i`. -/
def Table.get {α : Type} {n : Nat} (t : Table α n) (i : Fin n) : α :=
  t.rows.get (i.cast t.len.symm)

/-- The table with entry `i` replaced. -/
def Table.set {α : Type} {n : Nat} (t : Table α n) (i : Fin n) (a : α) : Table α n :=
  ⟨t.rows.set i.val a, by rw [List.length_set]; exact t.len⟩

/-- The table whose entry `i` is `f i`. -/
def Table.ofFn {α : Type} {n : Nat} (f : Fin n → α) : Table α n :=
  ⟨List.ofFn f, List.length_ofFn⟩

/-- The table whose entries are all `a`. -/
def Table.fill {α : Type} (n : Nat) (a : α) : Table α n :=
  ⟨List.replicate n a, List.length_replicate⟩

/-- The table with `f` applied to every entry. -/
def Table.map {α β : Type} {n : Nat} (f : α → β) (t : Table α n) : Table β n :=
  ⟨t.rows.map f, by rw [List.length_map]; exact t.len⟩

/-- The table with entry `i` passed through `f`. -/
def Table.modify {α : Type} {n : Nat} (t : Table α n) (i : Fin n) (f : α → α) : Table α n :=
  t.set i (f (t.get i))

/-- The numbers `0 .. n - 1` in order. -/
def indices (n : Nat) : List (Fin n) :=
  List.ofFn id

end Sys2Proof
end

