-- ==== Sys2Proof/Config.lean ====
section
/-! DEFINITION. The part's fixed sizes (Table 0-1 and the rules named) and the values the spec leaves open, as constants
without a body. -/

namespace Sys2Proof

/-- R156: the class of an originator, its rights. -/
inductive OrigClass where
  | operator
  | supervisor
  deriving DecidableEq, Repr, Inhabited

/-- Which of two blocks acts first at a frame mark, where the spec says that either may (log 5). -/
structure MarkOrder where
  /-- R96, R122: the Compositor takes the gate and the backlight level before the Frame Timer's work at the mark. -/
  compositorFirst : Bool
  /-- R165: the Command Unit raises and compares the interval count before the setup latch. -/
  commandFirst : Bool
  /-- R84: the Source Tracker's work at the mark (R57) is taken before the Store Manager counts repeats. -/
  trackerFirst : Bool
  deriving DecidableEq, Repr, Inhabited

/-- R77: pages of frame memory. -/
def Config.pageCount : Nat := 8192

/-- R77: store pixels in one page. -/
def Config.pagePixels : Nat := 16384

/-- R77: bytes in one page, 64 KiB. -/
def Config.pageBytes : Nat := 65536

/-- R148: the cells a reply queue holds. -/
def Config.replyCapacity : Nat := 8

/-- R142: the bytes of a cell before its check word. -/
def Config.bodyBytes : Nat := 254

/-- R142: the bytes of a cell. -/
def Config.cellBytes : Nat := 256

/-- DESIGN CHOICE (log 8): the byte an address of frame memory reads as that nothing has written. R91 writes every byte of
a buffer as the buffer is given, so no command can see it. -/
def Config.blankByte : Byte := 0

/-- FREE VALUE (log 9): the frame tag byte of a SOURCE_STATE or WINDOW_STATE record at a place where the tile holds no tag
(R59, R93 give the tag's place but no value for it there). Arguments: the READ's number, the place in that READ. -/
opaque Config.freeByte : Nat → Nat → Byte

/-- FREE VALUE (log 10): the class by which a command of an originator number above 15 is judged. The originator table
(R156) has no entry for it and no rule refuses the number. -/
opaque Config.unlistedClass : Nat → OrigClass

/-- FREE VALUE (log 27): byte 2 (window) of the CUES record of a cue that a COMMIT with a target frame makes. R129 gives the
cue no window, and nothing was written there that could read back as written (R167). -/
opaque Config.commitCueWindow : Byte

/-- FREE VALUE (log 27): byte 3 (source or preset) of that record. -/
opaque Config.commitCueParam : Byte

/-- FREE VALUE (log 5): the order of the blocks at a frame mark that a LINE_START at the frame's end is (R113). Argument:
the state's count of free values taken. -/
opaque Config.lineMarkOrder : Nat → MarkOrder

/-- FREE VALUE (log 30): whether starts in last frame becomes 0 at the mark after a source went OFF, although a frame of it
started in the panel frame that the mark ends. R58's sentence on OFF sources says that it does; R58's count and R48, which
keeps the count, give the starts. -/
opaque Config.offStartsCleared : Bool

end Sys2Proof
end

