-- ==== Sys2Proof/Syntax.lean ====
section
/-! DEFINITION. The commands of the tile: one constructor for each row of spec/opcode_table.json. The table gives the rows
no operand bits; the operands here are what the rules make each command depend on. -/

namespace Sys2Proof

/-- A cell of the wall ring: 256 bytes (R142), byte 0 first. `WellFormed` says the length. -/
abbrev Cell := List Byte

/-- The commands. Each is one step of the tile, whole and indivisible (spec/95_what_each_step_holds.md). -/
inductive Instr where
  /-- R151: power-on reset begins. -/
  | powerOnReset
  /-- R153: power-on reset ends. -/
  | powerOnResetEnd
  /-- R143: the ring receiver reports the inbound signal present. -/
  | signalPresent
  /-- R143: the ring receiver reports the inbound signal lost. -/
  | signalLost
  /-- R144: a whole cell arrives. `placeFirst`: the outbound IDLE place that the arrival opens leaves before the reply or
  STATUS cell that the same arrival makes is offered (R146, R148; log 4). -/
  | cellReceived (cell : Cell) (placeFirst : Bool)
  /-- R151: a cell arrives while the tile is in bypass. -/
  | bypassCell (cell : Cell)
  /-- R143: the run count of good cells reaches 8 in ALIGNING. -/
  | linkAligned
  /-- R143: the run count of bad cells reaches 4 in UP. -/
  | linkAlignmentLoss
  /-- R150: in DOWN, the tile generates an IDLE cell. -/
  | idleGenerate
  /-- R149: the outbound IDLE place is given. -/
  | idlePlace
  /-- R118: the good count reaches 8 in ACQUIRE. -/
  | lockAcquired
  /-- R118: the bad count reaches 3 in LOCKED. -/
  | lockBadLimit
  /-- R163: the tile reset sequence ends. -/
  | tileResetEnd
  /-- R97: a line start. -/
  | lineStart
  /-- R114: the frame mark. -/
  | frameMark (order : MarkOrder)
  /-- R119: the missed count reaches 3 in ACQUIRE. -/
  | acquireMissedLimit
  /-- R119: the missed count reaches the holdover limit in HOLDOVER. -/
  | holdoverLimit
  /-- R122: the start count reaches the start timeout. -/
  | startTimeout
  /-- R57: a source's frames-since-start count reaches its stall limit. -/
  | stallLimit (source : Fin 32)
  /-- R57: a source's frames-since-start count reaches its loss limit. -/
  | lossLimit (source : Fin 32)
  /-- R131: the first due cue of the queue is taken out and acts. -/
  | cueExpiry
  /-- R21: a touring window takes the source of its step. -/
  | tourStep (window : Fin 32)
  /-- R165: the status interval count reaches the status interval. -/
  | statusInterval
  deriving DecidableEq, Repr

end Sys2Proof
end

