-- ==== Sys2Proof/WellFormed.lean ====
section
/-! DEFINITION. Which terms of `Instr` are commands of the tile. Source and window operands carry their range in their
type; a cell operand must be a whole cell. -/

namespace Sys2Proof

/-- R142: a whole cell has 256 bytes. -/
abbrev Cell.Whole (c : Cell) : Prop := c.length = Config.cellBytes

/-- A command whose operands are what the spec's are. -/
def WellFormed : Instr → Bool
  | .cellReceived c _ => decide (Cell.Whole c)
  | .bypassCell c => decide (Cell.Whole c)
  | .powerOnReset | .powerOnResetEnd | .signalPresent | .signalLost | .linkAligned | .linkAlignmentLoss
  | .idleGenerate | .idlePlace | .lockAcquired | .lockBadLimit | .tileResetEnd | .lineStart | .frameMark _
  | .acquireMissedLimit | .holdoverLimit | .startTimeout | .stallLimit _ | .lossLimit _ | .cueExpiry | .tourStep _
  | .statusInterval => true

end Sys2Proof
end

