-- ==== Sys2Proof/Decode.lean ====
section
/-! DEFINITION. The decoder the host asks for, over the rows of spec/opcode_table.json that give bits. No row does
(spec/98_reader.md counts 0 rows with fixed bits), so no word spells a command. A tile takes its commands as events and
as cells; the fields of a cell are read in Machine/Operands.lean. -/

namespace Sys2Proof

/-- The command a word of `nbits` bits spells by the table: none, since the table gives no row any bits. -/
def decodeTableWord (_nbits _w : Nat) : Option Instr := none

end Sys2Proof
end

