-- ==== Sys2Proof/Machine/Records.lean ====
section
/-! DEFINITION. The things the blocks' tables hold: the named states and modes of the spec, colours, window, source, setup,
trigger and cue records, presets, buffers, with their default values. The numeric codes and the byte layouts are in
Machine/Operands.lean. -/

namespace Sys2Proof.Machine

/-! ### Names -/

/-- R143: the link state. -/
inductive LinkState where | down | aligning | up
  deriving DecidableEq, Repr

/-- R151: whether the tile is in bypass, and for which reset. -/
inductive Phase where | running | powerOnReset | tileReset
  deriving DecidableEq, Repr

/-- R117: the lock state. -/
inductive LockState where | free | acquire | locked | holdover
  deriving DecidableEq, Repr

/-- R122: the output gate. -/
inductive Gate where | gated | opened
  deriving DecidableEq, Repr

/-- R54: the state of a source. -/
inductive SourceState where | off | waiting | live | stalled | lost
  deriving DecidableEq, Repr

/-- R47: the pixel formats. -/
inductive PixFormat where | mono8 | rgb8 | rgb10
  deriving DecidableEq, Repr

/-- R1: the display mode of a window. -/
inductive DisplayMode where | live | freeze | solid | pattern | hidden
  deriving DecidableEq, Repr

/-- R1: what a LOST source's window shows. -/
inductive LossMode where | hold | fill
  deriving DecidableEq, Repr

/-- R1: the edge a caption runs along. -/
inductive CaptionPlace where | top | bottom
  deriving DecidableEq, Repr

/-- R12: the blank or highlight state of a window. -/
inductive AlarmState where | off | level | latched
  deriving DecidableEq, Repr

/-- R127, R135: what a cue or a trigger unit asks for. -/
inductive Action where | commit | recall | source | raise | blank | highlight
  deriving DecidableEq, Repr

/-- R135: what a trigger unit responds to. -/
inductive EdgeMode where | level | rising | falling | any
  deriving DecidableEq, Repr

/-- R127: whether a cue is removed when it acts, or put back. -/
inductive CueMode where | once | repeating
  deriving DecidableEq, Repr

/-- R96: the frame output state. -/
inductive OutputState where | show | black
  deriving DecidableEq, Repr

/-- R164: the event kinds, highest priority first. -/
inductive EventKind where
  | linkChange | lockChange | sourceLost | nomem | repliesDropped | slip
  | cueLate | sourceStalled | sourceLive | gateOpen | setupTaken | commitTaken
  deriving DecidableEq, Repr

/-! ### Colours and rectangles -/

/-- A 30-bit colour: three components of 0..1023 (00_scope.md, Colours). -/
structure Colour where
  r : BitVec 10
  g : BitVec 10
  b : BitVec 10
  deriving DecidableEq, Repr

def Colour.black : Colour := ⟨0, 0, 0⟩

/-- R27: the place of a tile on the canvas. -/
structure Geometry where
  ox : Nat
  oy : Nat
  pw : Nat
  ph : Nat
  deriving DecidableEq, Repr

/-- R30: a visible rectangle that is not empty: its corner and its size. -/
structure VisRect where
  x0 : Nat
  y0 : Nat
  w : Nat
  h : Nat
  deriving DecidableEq, Repr

/-! ### Records -/

/-- R1, Table 1-1: a window record. -/
structure WinRec where
  enabled : Bool
  pinned : Bool
  source : Fin 32
  tourLen : Nat
  tourList : Table (Fin 32) 8
  dwell : Nat
  x : Nat
  y : Nat
  w : Nat
  h : Nat
  cx : Nat
  cy : Nat
  cw : Nat
  ch : Nat
  mode : DisplayMode
  loss : LossMode
  fill : Colour
  borderWidth : Nat
  border : Colour
  stale : Colour
  alarm : Colour
  capPlace : CaptionPlace
  capSize : Nat
  capFg : Colour
  capBg : Colour
  capLen : Nat
  capText : Table (Fin 128) 32
  revision : Nat
  deriving DecidableEq, Repr

/-- R24, Table 1-6: the default window record. -/
def WinRec.default : WinRec where
  enabled := false
  pinned := false
  source := 0
  tourLen := 0
  tourList := Table.fill 8 0
  dwell := 0
  x := 0
  y := 0
  w := 16
  h := 16
  cx := 0
  cy := 0
  cw := 16
  ch := 16
  mode := .live
  loss := .hold
  fill := Colour.black
  borderWidth := 0
  border := ⟨767, 767, 767⟩
  stale := ⟨1023, 767, 0⟩
  alarm := ⟨1023, 0, 0⟩
  capPlace := .top
  capSize := 1
  capFg := ⟨1023, 1023, 1023⟩
  capBg := Colour.black
  capLen := 0
  capText := Table.fill 32 0
  revision := 0

/-- R12: the active window state. -/
structure WinState where
  blank : AlarmState
  highlight : AlarmState
  epoch : BitVec 32
  tourSource : Option (Fin 32)
  blankClear : Bool
  highlightClear : Bool
  deriving DecidableEq, Repr

/-- R14, R24: the cleared active window state. -/
def WinState.cleared : WinState := ⟨.off, .off, 0, none, false, false⟩

/-- R16: a preset. A slot is `none` where it is marked absent. -/
structure Preset where
  valid : Bool
  slots : Table (Option WinRec) 32
  list : List (Fin 32)
  deriving DecidableEq, Repr

/-- R24: an empty preset. -/
def Preset.empty : Preset := ⟨false, Table.fill 32 none, []⟩

/-- R45, Table 3-1: a source record. -/
structure SourceRec where
  enabled : Bool
  format : PixFormat
  sw : Nat
  sh : Nat
  stallLimit : Nat
  missingLimit : Nat
  lossLimit : Nat
  revision : Nat
  deriving DecidableEq, Repr

/-- R60, Table 3-6: the default source record. -/
def SourceRec.default : SourceRec := ⟨false, .rgb8, 1920, 1080, 30, 0, 300, 0⟩

/-- R50 to R59: what the Source Tracker keeps of one source beside its record. -/
structure SourceTrack where
  state : SourceState
  tag : Option Byte
  frameOpen : Bool
  accepted : Nat
  lastLine : Nat
  lastSegment : Nat
  sinceStart : Nat
  startPhase : Nat
  runningStarts : Nat
  lastStarts : Nat
  completed : Nat
  rejected : Nat
  discarded : Nat
  sequence : Nat
  deriving DecidableEq, Repr

/-- R60: a source after power-on reset. -/
def SourceTrack.idle : SourceTrack := ⟨.off, none, false, 0, 0, 0, 0, 0, 0, 0, 0, 0, 0, 0⟩

/-- R27, R123, R130, R165, Table 11-5: the setup record, less the tile address (R162). -/
structure Setup where
  statusInterval : Nat
  cueCapacity : Nat
  flash : Nat
  backlight : Nat
  geo : Geometry
  v : Nat
  o : Nat
  holdoverLimit : Nat
  startTimeout : Nat
  lookAhead : Nat
  eventMask : BitVec 12
  background : Colour
  deriving DecidableEq, Repr

/-- R125: the setup in force after power-on reset. -/
def Setup.powerOn : Setup where
  statusInterval := 32
  cueCapacity := 16
  flash := 4
  backlight := 255
  geo := ⟨0, 0, 1920, 1080⟩
  v := 1125
  o := 0
  holdoverLimit := 120
  startTimeout := 250
  lookAhead := 600
  eventMask := 0xFFF
  background := Colour.black

/-- R135, Table 8-2: a trigger unit. `param` is the source of SOURCE or the preset of RECALL. `window` and `param` are kept
as the bytes written, because a field that the action does not use reads back as written (R167). -/
structure Trigger where
  flagSelect : Nat
  invert : Bool
  edge : EdgeMode
  action : Action
  window : Byte
  param : Byte
  deriving DecidableEq, Repr

/-- R140: a trigger unit after power-on reset. -/
def Trigger.default : Trigger := ⟨0, false, .rising, .raise, 0, 0⟩

/-- R127, Table 8-1: a cue. `window` and `param` as in `Trigger`. -/
structure Cue where
  tag : Byte
  action : Action
  window : Byte
  param : Byte
  mode : CueMode
  period : Nat
  target : BitVec 32
  deriving DecidableEq, Repr

/-! ### Buffers -/

/-- R77: a page number. -/
abbrev Page := Fin 8192

/-- R78: the arm state of a FILLING buffer, with the tag of the frame a WRITING buffer receives. -/
inductive Arm where
  | armed
  | writing (tag : Byte)
  deriving DecidableEq, Repr

/-- R78: the role of a buffer. -/
inductive Role where
  | filling (arm : Arm)
  | ready
  | showing
  | spare
  deriving DecidableEq, Repr

/-- R78: a buffer. -/
structure Buffer where
  pages : List Page
  role : Role
  mark : Bool
  deriving DecidableEq, Repr

/-- R78, R93: the store of one window: its buffers, the source they are filled from, the rectangle they were sized for,
and the window's counters. -/
structure WinStore where
  bufs : List Buffer
  feeding : Option (Fin 32)
  sized : VisRect
  shown : Nat
  dropped : Nat
  repeated : Nat
  deriving DecidableEq, Repr

/-- R94: a window's store after a reset. -/
def WinStore.empty : WinStore := ⟨[], none, ⟨0, 0, 0, 0⟩, 0, 0, 0⟩

/-- R111: a glyph, 16 rows of 12 bits; column 0 is the most significant bit of a row. -/
abbrev Glyph := Table (BitVec 12) 16

/-- R11: which parts of one window a commit changed. -/
structure WinChange where
  enabled : Bool
  source : Bool
  tour : Bool
  dwell : Bool
  rect : Bool
  crop : Bool
  mode : Bool
  other : Bool
  deriving DecidableEq, Repr

/-- R11: nothing changed. -/
def WinChange.none : WinChange := ⟨false, false, false, false, false, false, false, false⟩

/-- R11: the change set shows a change of the window. -/
def WinChange.any (c : WinChange) : Bool :=
  c.enabled || c.source || c.tour || c.dwell || c.rect || c.crop || c.mode || c.other

end Sys2Proof.Machine
end

