-- ==== Sys2Proof/Machine/Glyphs.lean ====
section
/-! DEFINITION. The built-in glyph set of R112 (Table 6-5): for each code 33..126 five bytes, for glyph columns 4 to 8 from
left to right; bit r of a byte is the glyph bit at row 4 + r of that column. -/

namespace Sys2Proof.Machine

/-- Table 6-5, codes 33 to 56. -/
def glyphColumns1 : List (List Byte) :=
  [[0x00, 0x00, 0x5F, 0x00, 0x00],
   [0x00, 0x07, 0x00, 0x07, 0x00],
   [0x14, 0x7F, 0x14, 0x7F, 0x14],
   [0x24, 0x2A, 0x7F, 0x2A, 0x12],
   [0x23, 0x13, 0x08, 0x64, 0x62],
   [0x36, 0x49, 0x55, 0x22, 0x50],
   [0x00, 0x05, 0x03, 0x00, 0x00],
   [0x00, 0x1C, 0x22, 0x41, 0x00],
   [0x00, 0x41, 0x22, 0x1C, 0x00],
   [0x14, 0x08, 0x3E, 0x08, 0x14],
   [0x08, 0x08, 0x3E, 0x08, 0x08],
   [0x00, 0x50, 0x30, 0x00, 0x00],
   [0x08, 0x08, 0x08, 0x08, 0x08],
   [0x00, 0x60, 0x60, 0x00, 0x00],
   [0x20, 0x10, 0x08, 0x04, 0x02],
   [0x3E, 0x51, 0x49, 0x45, 0x3E],
   [0x00, 0x42, 0x7F, 0x40, 0x00],
   [0x42, 0x61, 0x51, 0x49, 0x46],
   [0x21, 0x41, 0x45, 0x4B, 0x31],
   [0x18, 0x14, 0x12, 0x7F, 0x10],
   [0x27, 0x45, 0x45, 0x45, 0x39],
   [0x3C, 0x4A, 0x49, 0x49, 0x30],
   [0x01, 0x71, 0x09, 0x05, 0x03],
   [0x36, 0x49, 0x49, 0x49, 0x36]]

/-- Table 6-5, codes 57 to 80. -/
def glyphColumns2 : List (List Byte) :=
  [[0x06, 0x49, 0x49, 0x29, 0x1E],
   [0x00, 0x36, 0x36, 0x00, 0x00],
   [0x00, 0x56, 0x36, 0x00, 0x00],
   [0x08, 0x14, 0x22, 0x41, 0x00],
   [0x14, 0x14, 0x14, 0x14, 0x14],
   [0x00, 0x41, 0x22, 0x14, 0x08],
   [0x02, 0x01, 0x51, 0x09, 0x06],
   [0x32, 0x49, 0x79, 0x41, 0x3E],
   [0x7E, 0x11, 0x11, 0x11, 0x7E],
   [0x7F, 0x49, 0x49, 0x49, 0x36],
   [0x3E, 0x41, 0x41, 0x41, 0x22],
   [0x7F, 0x41, 0x41, 0x22, 0x1C],
   [0x7F, 0x49, 0x49, 0x49, 0x41],
   [0x7F, 0x09, 0x09, 0x09, 0x01],
   [0x3E, 0x41, 0x49, 0x49, 0x7A],
   [0x7F, 0x08, 0x08, 0x08, 0x7F],
   [0x00, 0x41, 0x7F, 0x41, 0x00],
   [0x20, 0x40, 0x41, 0x3F, 0x01],
   [0x7F, 0x08, 0x14, 0x22, 0x41],
   [0x7F, 0x40, 0x40, 0x40, 0x40],
   [0x7F, 0x02, 0x0C, 0x02, 0x7F],
   [0x7F, 0x04, 0x08, 0x10, 0x7F],
   [0x3E, 0x41, 0x41, 0x41, 0x3E],
   [0x7F, 0x09, 0x09, 0x09, 0x06]]

/-- Table 6-5, codes 81 to 104. -/
def glyphColumns3 : List (List Byte) :=
  [[0x3E, 0x41, 0x51, 0x21, 0x5E],
   [0x7F, 0x09, 0x19, 0x29, 0x46],
   [0x46, 0x49, 0x49, 0x49, 0x31],
   [0x01, 0x01, 0x7F, 0x01, 0x01],
   [0x3F, 0x40, 0x40, 0x40, 0x3F],
   [0x1F, 0x20, 0x40, 0x20, 0x1F],
   [0x3F, 0x40, 0x38, 0x40, 0x3F],
   [0x63, 0x14, 0x08, 0x14, 0x63],
   [0x07, 0x08, 0x70, 0x08, 0x07],
   [0x61, 0x51, 0x49, 0x45, 0x43],
   [0x00, 0x7F, 0x41, 0x41, 0x00],
   [0x02, 0x04, 0x08, 0x10, 0x20],
   [0x00, 0x41, 0x41, 0x7F, 0x00],
   [0x04, 0x02, 0x01, 0x02, 0x04],
   [0x40, 0x40, 0x40, 0x40, 0x40],
   [0x00, 0x01, 0x02, 0x04, 0x00],
   [0x20, 0x54, 0x54, 0x54, 0x78],
   [0x7F, 0x48, 0x44, 0x44, 0x38],
   [0x38, 0x44, 0x44, 0x44, 0x20],
   [0x38, 0x44, 0x44, 0x48, 0x7F],
   [0x38, 0x54, 0x54, 0x54, 0x18],
   [0x08, 0x7E, 0x09, 0x01, 0x02],
   [0x0C, 0x52, 0x52, 0x52, 0x3E],
   [0x7F, 0x08, 0x04, 0x04, 0x78]]

/-- Table 6-5, codes 105 to 126. -/
def glyphColumns4 : List (List Byte) :=
  [[0x00, 0x44, 0x7D, 0x40, 0x00],
   [0x20, 0x40, 0x44, 0x3D, 0x00],
   [0x7F, 0x10, 0x28, 0x44, 0x00],
   [0x00, 0x41, 0x7F, 0x40, 0x00],
   [0x7C, 0x04, 0x18, 0x04, 0x78],
   [0x7C, 0x08, 0x04, 0x04, 0x78],
   [0x38, 0x44, 0x44, 0x44, 0x38],
   [0x7C, 0x14, 0x14, 0x14, 0x08],
   [0x08, 0x14, 0x14, 0x18, 0x7C],
   [0x7C, 0x08, 0x04, 0x04, 0x08],
   [0x48, 0x54, 0x54, 0x54, 0x20],
   [0x04, 0x3F, 0x44, 0x40, 0x20],
   [0x3C, 0x40, 0x40, 0x20, 0x7C],
   [0x1C, 0x20, 0x40, 0x20, 0x1C],
   [0x3C, 0x40, 0x30, 0x40, 0x3C],
   [0x44, 0x28, 0x10, 0x28, 0x44],
   [0x0C, 0x50, 0x50, 0x50, 0x3C],
   [0x44, 0x64, 0x54, 0x4C, 0x44],
   [0x00, 0x08, 0x36, 0x41, 0x00],
   [0x00, 0x00, 0x7F, 0x00, 0x00],
   [0x00, 0x41, 0x36, 0x08, 0x00],
   [0x08, 0x04, 0x08, 0x10, 0x08]]

/-- Table 6-5, code 33 first. -/
def glyphColumns : List (List Byte) :=
  glyphColumns1 ++ (glyphColumns2 ++ (glyphColumns3 ++ glyphColumns4))

/-- R112: the bit at `row`, `col` of the built-in glyph of `code`. -/
def builtInBit (code row col : Nat) : Bool :=
  33 ≤ code && code ≤ 126 && 4 ≤ row && row ≤ 11 && 4 ≤ col && col ≤ 8 &&
    (((glyphColumns.getD (code - 33) []).getD (col - 4) 0).getLsbD (row - 4))

/-- R112: the built-in glyph of `code`; codes 0..32 and 127 are blank. -/
def builtInGlyph (code : Nat) : Glyph :=
  Table.ofFn fun row =>
    BitVec.ofNat 12 ((List.range 12).foldl (fun acc col => 2 * acc + (builtInBit code row.val col).toNat) 0)

/-- R112: the glyph table after power-on reset. -/
def builtInGlyphs : Table Glyph 128 :=
  Table.ofFn fun code => builtInGlyph code.val

end Sys2Proof.Machine
end

