-- ==== Sys2Proof/Machine/Memory.lean ====
section
/-! DEFINITION. The frame memory of R77: 8192 pages of 16384 store pixels of 32 bits, as a list of (address, byte) pairs in
one canonical form: addresses strictly rising, no entry equal to the byte an unlisted address reads as. Word `place` of
page `p` lies at bytes `65536 p + 4 place` onward, most significant byte first (log 8). -/

namespace Sys2Proof.Machine

/-- The frame memory. -/
abbrev Memory := List Host.Cell

/-- R77: 512 MiB. -/
def Memory.size : Nat := Config.pageCount * Config.pageBytes

/-- The canonical form. -/
abbrev Memory.wf (m : Memory) : Prop :=
  m.Pairwise (fun c d => c.1 < d.1) ∧ ∀ c ∈ m, c.2 ≠ Config.blankByte ∧ c.1 < Memory.size

/-- The byte at an address. -/
def Memory.readByte : Memory → Nat → Byte
  | [], _ => Config.blankByte
  | (k, v) :: rest, a => if k = a then v else Memory.readByte rest a

/-- The memory with one byte written. -/
def Memory.writeByte : Memory → Nat → Byte → Memory
  | [], a, v => if v = Config.blankByte then [] else [(a, v)]
  | (k, w) :: rest, a, v =>
    if a < k then (if v = Config.blankByte then (k, w) :: rest else (a, v) :: (k, w) :: rest)
    else if a = k then (if v = Config.blankByte then rest else (a, v) :: rest)
    else (k, w) :: Memory.writeByte rest a v

/-- The four bytes of a store pixel, most significant first. -/
def wordBytes (w : BitVec 32) : List Byte :=
  [w.extractLsb' 24 8, w.extractLsb' 16 8, w.extractLsb' 8 8, w.extractLsb' 0 8]

/-- The memory with bytes written at consecutive addresses. -/
def Memory.writeBytes : Memory → Nat → List Byte → Memory
  | m, _, [] => m
  | m, a, b :: bs => Memory.writeBytes (m.writeByte a b) (a + 1) bs

/-- The memory with a store pixel written at byte address `a`. -/
def Memory.writeWord (m : Memory) (a : Nat) (w : BitVec 32) : Memory :=
  m.writeBytes a (wordBytes w)

/-- The store pixel at byte address `a`. -/
def Memory.readWord (m : Memory) (a : Nat) : BitVec 32 :=
  m.readByte a ++ m.readByte (a + 1) ++ m.readByte (a + 2) ++ m.readByte (a + 3)

/-- The byte address of word `place` of a page. -/
def wordAddress (p : Page) (place : Nat) : Nat :=
  p.val * Config.pageBytes + 4 * (place % Config.pagePixels)

/-- The canonical entries of a page all of whose words hold `w`. -/
def pageBlock (p : Page) (w : BitVec 32) : Memory :=
  if w = 0 then []
  else ((List.range Config.pagePixels).flatMap fun k =>
    (List.range 4).map fun j => ((wordAddress p k + j, (wordBytes w).getD j 0) : Host.Cell)).filter
      fun c => c.2 != Config.blankByte

/-- R91: the memory with every word of a page set to `w`. -/
def Memory.fillPage (m : Memory) (p : Page) (w : BitVec 32) : Memory :=
  m.filter (fun c => c.1 < p.val * Config.pageBytes) ++
    (pageBlock p w ++ m.filter (fun c => p.val * Config.pageBytes + Config.pageBytes ≤ c.1))

/-- R91: the memory with every word of each page set to `w`. -/
def Memory.fillPages (m : Memory) (ps : List Page) (w : BitVec 32) : Memory :=
  ps.foldl (fun acc p => acc.fillPage p w) m

end Sys2Proof.Machine
end

