-- ==== Sys2Proof/Machine/Blocks.lean ====
section
/-! DEFINITION. The state each block owns, and its value after power-on reset. INVENTORY.md lists every field with its
rule. -/

namespace Sys2Proof.Machine

/-- The Ring Port (09_the_wall_ring.md). A waiting REPLY or STATUS cell is its 254 bytes before the check word. -/
structure Ring where
  /-- R151: bypass is on in every phase but `running`. -/
  phase : Phase
  /-- R143: the ring receiver's last report. -/
  signal : Bool
  /-- R153: the signal has been present throughout the tile reset in progress. -/
  signalHeld : Bool
  /-- R163: originator and sequence of the TILE_RESET command being carried out. -/
  resetReply : Option (Byte × Byte)
  link : LinkState
  runCount : Nat
  replies : List (List Byte)
  slot : Option (List Byte)
  life : Nat
  cellsReceived : Nat
  checkErrors : Nat
  alignLosses : Nat
  controlTaken : Nat
  repliesDropped : Nat
  /-- R149: the IDLE cell about to leave, whose place is still to be given. -/
  place : Option Cell
  /-- The cells that have left the outbound side, oldest first (log 6). -/
  outbound : List Cell
  deriving DecidableEq, Repr

/-- R153, with the reset ended and no inbound signal (log 7). -/
def Ring.powerOn : Ring where
  phase := .running
  signal := false
  signalHeld := false
  resetReply := none
  link := .down
  runCount := 0
  replies := []
  slot := none
  life := 0
  cellsReceived := 0
  checkErrors := 0
  alignLosses := 0
  controlTaken := 0
  repliesDropped := 0
  place := none
  outbound := []

/-- The Command Unit (10_management_commands_and_status.md), with the tile address of R162. -/
structure CommandUnit where
  address : Nat
  origins : Table OrigClass 16
  /-- R164, R166: the kind of priority k at bit k - 1. -/
  attention : BitVec 12
  intervalCount : Nat
  deriving DecidableEq, Repr

/-- R156, R162, R164, R165. -/
def CommandUnit.powerOn : CommandUnit :=
  ⟨0, (Table.fill 16 .operator).set 0 .supervisor, 0, 0⟩

/-- The Frame Timer (07_wall_timing_and_frame_lock.md). -/
structure Timer where
  lineCount : Nat
  /-- The line start of line 0 has not been taken by the Compositor yet (log 2). -/
  lineZeroDue : Bool
  frameLen : Nat
  trim : Int
  lock : LockState
  good : Nat
  bad : Nat
  missed : Nat
  lastPhase : Int
  wallN : BitVec 32
  nextN : BitVec 32
  syncNoted : Bool
  curFlags : BitVec 32
  prevFlags : BitVec 32
  pendFlags : BitVec 32
  slip : Nat
  gate : Gate
  startCount : Nat
  /-- R123: the setup record in force. -/
  setup : Setup
  /-- R123: the pending setup copy; its presence is the setup pending flag. -/
  pendSetup : Option Setup
  deriving DecidableEq, Repr

/-- R125. -/
def Timer.powerOn : Timer where
  lineCount := 0
  lineZeroDue := true
  frameLen := Setup.powerOn.v
  trim := 0
  lock := .free
  good := 0
  bad := 0
  missed := 0
  lastPhase := 0
  wallN := 0
  nextN := 0
  syncNoted := false
  curFlags := 0
  prevFlags := 0
  pendFlags := 0
  slip := 0
  gate := .gated
  startCount := 0
  setup := Setup.powerOn
  pendSetup := none

/-- The Scene Controller (01_windows_and_scenes.md). -/
structure Scene where
  shadow : Table WinRec 32
  active : Table WinRec 32
  shadowList : List (Fin 32)
  activeList : List (Fin 32)
  presets : Table Preset 4
  commitPending : Bool
  recallNote : Bool
  wins : Table WinState 32
  deriving DecidableEq, Repr

/-- R24. -/
def Scene.powerOn : Scene where
  shadow := Table.fill 32 WinRec.default
  active := Table.fill 32 WinRec.default
  shadowList := []
  activeList := []
  presets := Table.fill 4 Preset.empty
  commitPending := false
  recallNote := false
  wins := Table.fill 32 WinState.cleared

/-- The Source Tracker (03_sources.md). -/
structure Tracker where
  records : Table SourceRec 32
  states : Table SourceTrack 32
  deriving DecidableEq, Repr

/-- R60. -/
def Tracker.powerOn : Tracker :=
  ⟨Table.fill 32 SourceRec.default, Table.fill 32 SourceTrack.idle⟩

/-- R62: what the Store Manager has published to the Intake Engine. -/
structure Published where
  active : Table WinRec 32
  tours : Table (Option (Fin 32)) 32
  geo : Geometry
  deriving DecidableEq, Repr

/-- The Store Manager (05_frame_stores.md). -/
structure StoreManager where
  mem : Memory
  free : List Page
  wins : Table WinStore 32
  degraded : Nat
  pub : Published
  deriving DecidableEq, Repr

/-- R94, with the power-on scene and geometry published (log 21). -/
def StoreManager.powerOn : StoreManager where
  mem := []
  free := indices 8192
  wins := Table.fill 32 WinStore.empty
  degraded := 0
  pub := ⟨Table.fill 32 WinRec.default, Table.fill 32 none, Setup.powerOn.geo⟩

/-- The Compositor (06_composition_and_captions.md). -/
structure Compositor where
  glyphs : Table Glyph 128
  output : OutputState
  backlight : Nat
  /-- The line last sent to the panel, and its colours from the left (log 6). -/
  panelLine : Nat
  panelPixels : List Colour
  deriving DecidableEq, Repr

/-- R98, R112. -/
def Compositor.powerOn : Compositor := ⟨builtInGlyphs, .black, 0, 0, []⟩

/-- The Cue and Trigger Unit (08_cues_tours_and_alarm_triggers.md). -/
structure CueUnit where
  queue : List Cue
  triggers : Table Trigger 8
  strobes : Table Bool 8
  deriving DecidableEq, Repr

/-- R140. -/
def CueUnit.powerOn : CueUnit :=
  ⟨[], Table.fill 8 Trigger.default, Table.fill 8 false⟩

end Sys2Proof.Machine
end

