-- ==== Sys2Proof/Machine/State.lean ====
section
/-! DEFINITION. The state of the tile: what each block owns (Machine/Blocks.lean), the counter of the free values, and the
queue of commands that wait; the faults and refusals; the state after reset. -/

namespace Sys2Proof.Machine

/-- The tile. Plain data. -/
structure State where
  ring : Ring
  cmd : CommandUnit
  timer : Timer
  scene : Scene
  src : Tracker
  store : StoreManager
  comp : Compositor
  cues : CueUnit
  /-- The model's own: how many free values have been drawn (logs 5 and 9). -/
  freeIdx : Nat
  /-- The commands that wait, first in, first out. -/
  pending : List Instr
  deriving DecidableEq, Repr

/-- The spec gives the tile nothing that stops it: a bad cell is counted (R142, R49, R51) and a command that cannot be
carried out is answered with a result (R154). So there is no fault. -/
inductive Fault where
  deriving DecidableEq, Repr

/-- Why a command has no meaning. -/
inductive Refusal where
  /-- A row of the table without a meaning yet. Safe. No arm of `exec` answers with it now. -/
  | notModelled (mnemonic : String)
  /-- Raised by CELL_RECEIVED and BYPASS_CELL for an operand that is not 256 bytes long, and so is no cell (R142). Safe:
  no arrival of a cell is refused (log 20). -/
  | notWholeCell
  deriving DecidableEq, Repr

/-- R24, R60, R94, R98, R125, R140, R151, R153: the tile when power-on reset has ended, with no inbound signal and no
command waiting (log 7). -/
def State.reset : State where
  ring := Ring.powerOn
  cmd := CommandUnit.powerOn
  timer := Timer.powerOn
  scene := Scene.powerOn
  src := Tracker.powerOn
  store := StoreManager.powerOn
  comp := Compositor.powerOn
  cues := CueUnit.powerOn
  freeIdx := 0
  pending := []

end Sys2Proof.Machine
end

