-- ==== Sys2Proof/Machine/Operands.lean ====
section
/-! DEFINITION. How commands carry their operands: bytes and multi-byte fields, the header of a cell (Table 11-1), the
numeric codes (Tables 11-2, 11-3), and the packing of every record (R167, Tables 11-4 and 11-5). -/

namespace Sys2Proof.Machine

/-! ### Bytes and fields -/

/-- A byte holding the low 8 bits of a number. -/
def byte (n : Nat) : Byte := BitVec.ofNat 8 n

/-- A yes/no byte: 1 for yes, 0 for no (R167). -/
def boolByte (b : Bool) : Byte := if b then 1 else 0

/-- `k` bytes of a number, most significant byte first (00_scope.md, Byte order). -/
def natBytes (k n : Nat) : List Byte :=
  (List.range k).map fun i => byte (n / 256 ^ (k - 1 - i))

/-- The number that bytes hold, most significant byte first. -/
def bytesNat (l : List Byte) : Nat :=
  l.foldl (fun acc b => 256 * acc + b.toNat) 0

/-- Byte `i` of a cell or record; 0 past its end. -/
def byteAt (l : List Byte) (i : Nat) : Byte := l.getD i 0

/-- The field of `k` bytes at byte `i`. -/
def field (l : List Byte) (i k : Nat) : Nat := bytesNat ((l.drop i).take k)

/-- `bytes` cut or filled with 0 bytes to length `k`. -/
def padTo (k : Nat) (l : List Byte) : List Byte := l.take k ++ List.replicate (k - l.length) 0

/-- Fields of `w` bits, the first most significant (R167, Packed fields). -/
def packFields (w : Nat) (l : List Nat) : Nat :=
  l.foldl (fun acc x => acc * 2 ^ w + x % 2 ^ w) 0

/-- Field `i` of `n` fields of `w` bits, the first most significant. -/
def unpackField (w n v i : Nat) : Nat := v / 2 ^ (w * (n - 1 - i)) % 2 ^ w

/-- Two's complement in `w` bits (R167, Signed fields). -/
def signedNat (w : Nat) (z : Int) : Nat := (z % (2 ^ w : Int)).toNat

/-- R160, R167: the signed value of the low 12 bits of a word. -/
def signed12 (n : Nat) : Int := (BitVec.ofNat 12 n).toInt

/-- A number as an index below `n`; a number already below it stays as it is. -/
def indexOf (n : Nat) [NeZero n] (k : Nat) : Fin n := Fin.ofNat n k

/-- An index, when a number is below `n`. -/
def index? (n : Nat) (k : Nat) : Option (Fin n) :=
  if h : k < n then some ⟨k, h⟩ else none

/-- R167: a colour or store pixel in 32 bits: red in bits 29..20, green in 19..10, blue in 9..0, the spare bits 0. -/
def Colour.word (c : Colour) : BitVec 32 := (0#2 ++ c.r ++ c.g ++ c.b).cast rfl

/-- R167: the colour a 32-bit word holds; bits 31..30 are ignored. -/
def Colour.ofWord (w : BitVec 32) : Colour :=
  ⟨w.extractLsb' 20 10, w.extractLsb' 10 10, w.extractLsb' 0 10⟩

/-- R167: the four bytes of a colour. -/
def colourBytes (c : Colour) : List Byte := wordBytes c.word

/-- R167: the colour at byte `i` of a record. -/
def colourAt (l : List Byte) (i : Nat) : Colour := Colour.ofWord (BitVec.ofNat 32 (field l i 4))

/-! ### Codes (Table 11-3) -/

def LinkState.code : LinkState → Nat
  | .down => 0
  | .aligning => 1
  | .up => 2

def LockState.code : LockState → Nat
  | .free => 0
  | .acquire => 1
  | .locked => 2
  | .holdover => 3

def Gate.code : Gate → Nat
  | .gated => 0
  | .opened => 1

def SourceState.code : SourceState → Nat
  | .off => 0
  | .waiting => 1
  | .live => 2
  | .stalled => 3
  | .lost => 4

def PixFormat.code : PixFormat → Nat
  | .mono8 => 0
  | .rgb8 => 1
  | .rgb10 => 2

def PixFormat.ofCode : Nat → Option PixFormat
  | 0 => some .mono8
  | 1 => some .rgb8
  | 2 => some .rgb10
  | _ => none

def DisplayMode.code : DisplayMode → Nat
  | .live => 0
  | .freeze => 1
  | .solid => 2
  | .pattern => 3
  | .hidden => 4

def DisplayMode.ofCode : Nat → Option DisplayMode
  | 0 => some .live
  | 1 => some .freeze
  | 2 => some .solid
  | 3 => some .pattern
  | 4 => some .hidden
  | _ => none

def AlarmState.code : AlarmState → Nat
  | .off => 0
  | .level => 1
  | .latched => 2

def Action.code : Action → Nat
  | .commit => 0
  | .recall => 1
  | .source => 2
  | .raise => 3
  | .blank => 4
  | .highlight => 5

def Action.ofCode : Nat → Option Action
  | 0 => some .commit
  | 1 => some .recall
  | 2 => some .source
  | 3 => some .raise
  | 4 => some .blank
  | 5 => some .highlight
  | _ => none

def EdgeMode.code : EdgeMode → Nat
  | .level => 0
  | .rising => 1
  | .falling => 2
  | .any => 3

def EdgeMode.ofCode : Nat → Option EdgeMode
  | 0 => some .level
  | 1 => some .rising
  | 2 => some .falling
  | 3 => some .any
  | _ => none

def CueMode.code : CueMode → Nat
  | .once => 0
  | .repeating => 1

def CueMode.ofCode : Nat → Option CueMode
  | 0 => some .once
  | 1 => some .repeating
  | _ => none

def classCode : OrigClass → Nat
  | .operator => 0
  | .supervisor => 1

def classOfCode : Nat → Option OrigClass
  | 0 => some .operator
  | 1 => some .supervisor
  | _ => none

/-- R167: a yes/no byte; a value other than 0 and 1 has no meaning. -/
def boolOfCode : Nat → Option Bool
  | 0 => some false
  | 1 => some true
  | _ => none

/-- Buffer role, Table 11-3. -/
def Role.code : Role → Nat
  | .filling _ => 1
  | .ready => 2
  | .showing => 3
  | .spare => 4

/-- Arm state, Table 11-3: 0 for a buffer that is not FILLING. -/
def Role.armCode : Role → Nat
  | .filling .armed => 1
  | .filling (.writing _) => 2
  | _ => 0

/-! ### Cells (Table 11-1) -/

/-- The kinds of cell; a code of 6 or more has no meaning as a kind (R166). -/
inductive CellKind where | idle | strip | sync | control | reply | status | noMeaning
  deriving DecidableEq, Repr

/-- The kind of a cell: byte 0. -/
def cellKind (c : Cell) : CellKind :=
  match (byteAt c 0).toNat with
  | 0 => .idle
  | 1 => .strip
  | 2 => .sync
  | 3 => .control
  | 4 => .reply
  | 5 => .status
  | _ => .noMeaning

/-- The 240 payload bytes of a cell. -/
def payload (c : Cell) : List Byte := (c.drop 14).take 240

/-- A STRIP cell's header. -/
structure Strip where
  source : Nat
  tag : Byte
  line : Nat
  segment : Nat
  format : Nat
  pixels : List Byte
  deriving DecidableEq, Repr

def stripOf (c : Cell) : Strip :=
  ⟨(byteAt c 1).toNat, byteAt c 2, field c 3 2, (byteAt c 5).toNat, (byteAt c 6).toNat, payload c⟩

/-- The number a SYNC cell announces. -/
def syncNumber (c : Cell) : BitVec 32 := BitVec.ofNat 32 (field c 1 4)

/-- The flag word of a SYNC cell, flag n at bit n. -/
def syncFlags (c : Cell) : BitVec 32 := BitVec.ofNat 32 (field c 5 4)

/-- A CONTROL cell's header and payload. -/
structure Control where
  destination : Nat
  originator : Byte
  sequence : Byte
  command : Byte
  table : Nat
  index : Nat
  count : Nat
  arg1 : Nat
  arg2 : Nat
  payload : List Byte
  deriving DecidableEq, Repr

def controlOf (c : Cell) : Control :=
  { destination := (byteAt c 1).toNat
    originator := byteAt c 2
    sequence := byteAt c 3
    command := byteAt c 4
    table := (byteAt c 5).toNat
    index := (byteAt c 6).toNat
    count := (byteAt c 7).toNat
    arg1 := field c 8 2
    arg2 := field c 10 2
    payload := Machine.payload c }

/-- The 17 commands of Table 11-2. -/
inductive Command where
  | read | write | writeIf | commit | stack | nudge | presetSave | presetLoad | cueAdd | cueCancel | cueClear | strobe
  | highlightClear | blankClear | eventAck | enumerate | tileReset
  deriving DecidableEq, Repr

def Command.ofCode : Nat → Option Command
  | 1 => some .read
  | 2 => some .write
  | 3 => some .writeIf
  | 4 => some .commit
  | 5 => some .stack
  | 6 => some .nudge
  | 7 => some .presetSave
  | 8 => some .presetLoad
  | 9 => some .cueAdd
  | 10 => some .cueCancel
  | 11 => some .cueClear
  | 12 => some .strobe
  | 13 => some .highlightClear
  | 14 => some .blankClear
  | 15 => some .eventAck
  | 16 => some .enumerate
  | 17 => some .tileReset
  | _ => none

/-- The tables of Table 10-1. -/
inductive TableId where
  | setup | origins | sources | windows | active | stack | activeStack | glyphs | triggers | sourceState | windowState
  | cues | counters
  deriving DecidableEq, Repr

def TableId.ofCode : Nat → Option TableId
  | 1 => some .setup
  | 2 => some .origins
  | 3 => some .sources
  | 4 => some .windows
  | 5 => some .active
  | 6 => some .stack
  | 7 => some .activeStack
  | 8 => some .glyphs
  | 9 => some .triggers
  | 10 => some .sourceState
  | 11 => some .windowState
  | 12 => some .cues
  | 13 => some .counters
  | _ => none

/-- Table 10-1: the number of records; for CUES the positions an index may name (R157). -/
def TableId.records : TableId → Nat
  | .setup | .stack | .activeStack | .counters => 1
  | .origins => 16
  | .sources | .windows | .active | .sourceState | .windowState => 32
  | .glyphs => 128
  | .triggers => 8
  | .cues => 64

/-- Tables 11-4 and 11-5: the bytes of one record. -/
def TableId.recordSize : TableId → Nat
  | .setup => 30
  | .origins => 1
  | .sources => 12
  | .windows | .active => 80
  | .stack | .activeStack => 36
  | .glyphs => 32
  | .triggers => 8
  | .sourceState => 24
  | .windowState => 40
  | .cues => 12
  | .counters => 28

/-- R157, R158: the whole records that fit in a payload. -/
def TableId.perPayload (t : TableId) : Nat := 240 / t.recordSize

/-- R155: the tables marked read only. -/
def TableId.readOnly : TableId → Bool
  | .active | .stack | .activeStack | .sourceState | .windowState | .cues => true
  | .setup | .origins | .sources | .windows | .glyphs | .triggers | .counters => false

/-- R156: the tables whose WRITE is for SUPERVISOR originators. -/
def TableId.supervisorOnly : TableId → Bool
  | .setup | .origins | .glyphs | .triggers => true
  | .sources | .windows | .active | .stack | .activeStack | .sourceState | .windowState | .cues | .counters => false

/-- The results of Table 11-2. -/
inductive Result where
  | ok | denied | unknown | range | readonly | stale | late | far | full | empty | notfound
  deriving DecidableEq, Repr

def Result.code : Result → Nat
  | .ok => 0
  | .denied => 1
  | .unknown => 2
  | .range => 3
  | .readonly => 4
  | .stale => 5
  | .late => 6
  | .far => 7
  | .full => 8
  | .empty => 9
  | .notfound => 10

/-! ### Window records (Table 11-4) -/

/-- Table 11-4: the 80 bytes of a window record. -/
def WinRec.pack (r : WinRec) : List Byte :=
  [byte (128 * r.enabled.toNat + 64 * r.pinned.toNat + (if r.loss = .fill then 32 else 0) +
      (if r.capPlace = .bottom then 16 else 0) + 4 * (r.capSize % 4)),
    byte r.mode.code, byte r.source.val, byte (16 * r.tourLen + r.borderWidth % 16), byte r.capLen]
  ++ natBytes 2 r.revision ++ natBytes 2 r.dwell
  ++ natBytes 2 r.x ++ natBytes 2 r.y ++ natBytes 2 r.w ++ natBytes 2 r.h
  ++ natBytes 6 (packFields 12 [r.cx, r.cy, r.cw - 1, r.ch - 1])
  ++ natBytes 5 (packFields 5 (r.tourList.rows.map Fin.val))
  ++ colourBytes r.fill ++ colourBytes r.border ++ colourBytes r.stale ++ colourBytes r.alarm
  ++ colourBytes r.capFg ++ colourBytes r.capBg
  ++ natBytes 28 (packFields 7 (r.capText.rows.map Fin.val))

/-- The pinned field of a delivered window record, read for the class check of R3. -/
def deliveredPinned (l : List Byte) : Bool := (byteAt l 0).getLsbD 6

/-- Table 11-4: the record that 80 delivered bytes spell, with revision 0; none where the display mode has no meaning or
the source is above 31 (R2). The other constraints of Table 1-2 are in `WinRec.ok`. -/
def WinRec.unpack (l : List Byte) : Option WinRec := do
  let b0 := byteAt l 0
  let mode ← DisplayMode.ofCode (byteAt l 1).toNat
  let source ← index? 32 (byteAt l 2).toNat
  let crop := field l 17 6
  let tour := field l 23 5
  let text := field l 52 28
  return {
    enabled := b0.getLsbD 7
    pinned := b0.getLsbD 6
    source := source
    tourLen := (byteAt l 3).toNat / 16
    tourList := Table.ofFn fun i => indexOf 32 (unpackField 5 8 tour i.val)
    dwell := field l 7 2
    x := field l 9 2
    y := field l 11 2
    w := field l 13 2
    h := field l 15 2
    cx := unpackField 12 4 crop 0
    cy := unpackField 12 4 crop 1
    cw := unpackField 12 4 crop 2 + 1
    ch := unpackField 12 4 crop 3 + 1
    mode := mode
    loss := if b0.getLsbD 5 then .fill else .hold
    fill := colourAt l 28
    borderWidth := (byteAt l 3).toNat % 16
    border := colourAt l 32
    stale := colourAt l 36
    alarm := colourAt l 40
    capPlace := if b0.getLsbD 4 then .bottom else .top
    capSize := b0.toNat / 4 % 4
    capFg := colourAt l 44
    capBg := colourAt l 48
    capLen := (byteAt l 4).toNat
    capText := Table.ofFn fun i => indexOf 128 (unpackField 7 32 text i.val)
    revision := 0 }

/-- The ceiling of a quotient. -/
def ceilDiv (a b : Nat) : Nat := (a + b - 1) / b

/-- R2, Table 1-2, R40: the constraints of a window record. The source, the tour entries and the caption codes cannot be
out of range in a `WinRec`. -/
def WinRec.ok (r : WinRec) : Bool :=
  decide (r.tourLen ≤ 8) &&
  decide (16 ≤ r.w) && decide (r.w ≤ 32768) && decide (16 ≤ r.h) && decide (r.h ≤ 16384) &&
  decide (r.x + r.w ≤ 32768) && decide (r.y + r.h ≤ 16384) &&
  decide (1 ≤ r.cw) && decide (r.cw ≤ 4096) && decide (1 ≤ r.ch) && decide (r.ch ≤ 4096) &&
  decide (r.cx + r.cw ≤ 4096) && decide (r.cy + r.ch ≤ 4096) &&
  decide (ceilDiv r.cw 8 ≤ r.w) && decide (ceilDiv r.ch 8 ≤ r.h) &&
  decide (r.borderWidth ≤ 15) &&
  decide (r.capSize = 1 ∨ r.capSize = 2) && decide (r.capLen ≤ 32)

/-! ### The other records (Table 11-5) -/

/-- SOURCES, 12 bytes. -/
def SourceRec.pack (r : SourceRec) : List Byte :=
  [boolByte r.enabled, byte r.format.code] ++ natBytes 2 r.sw ++ natBytes 2 r.sh
  ++ [byte r.stallLimit, byte r.missingLimit] ++ natBytes 2 r.lossLimit ++ natBytes 2 r.revision

/-- SOURCES: the record that 12 delivered bytes spell, with revision 0. -/
def SourceRec.unpack (l : List Byte) : Option SourceRec := do
  let enabled ← boolOfCode (byteAt l 0).toNat
  let format ← PixFormat.ofCode (byteAt l 1).toNat
  return ⟨enabled, format, field l 2 2, field l 4 2, (byteAt l 6).toNat, (byteAt l 7).toNat, field l 8 2, 0⟩

/-- R46: the check of a source record. -/
def SourceRec.ok (r : SourceRec) : Bool :=
  decide (16 ≤ r.sw) && decide (r.sw ≤ 4096) && decide (16 ≤ r.sh) && decide (r.sh ≤ 4096) &&
  decide (1 ≤ r.stallLimit) && decide (r.stallLimit ≤ 255) && decide (r.stallLimit < r.lossLimit) &&
  decide (r.missingLimit ≤ 255)

/-- SETUP, 30 bytes, with the tile address in force. -/
def Setup.pack (address : Nat) (r : Setup) : List Byte :=
  [byte address, byte r.statusInterval, byte r.cueCapacity, byte r.flash, byte r.backlight, 0]
  ++ natBytes 2 r.geo.ox ++ natBytes 2 r.geo.oy ++ natBytes 2 r.geo.pw ++ natBytes 2 r.geo.ph
  ++ natBytes 2 r.v ++ natBytes 2 r.o ++ natBytes 2 r.holdoverLimit ++ natBytes 2 r.startTimeout
  ++ natBytes 2 r.lookAhead ++ natBytes 2 r.eventMask.toNat ++ colourBytes r.background

/-- SETUP: the record that 30 delivered bytes spell. The tile address is ignored (R158), and so are the mask's positions
that name no kind (R165). -/
def Setup.unpack (l : List Byte) : Setup where
  statusInterval := (byteAt l 1).toNat
  cueCapacity := (byteAt l 2).toNat
  flash := (byteAt l 3).toNat
  backlight := (byteAt l 4).toNat
  geo := ⟨field l 6 2, field l 8 2, field l 10 2, field l 12 2⟩
  v := field l 14 2
  o := field l 16 2
  holdoverLimit := field l 18 2
  startTimeout := field l 20 2
  lookAhead := field l 22 2
  eventMask := BitVec.ofNat 12 (field l 24 2)
  background := colourAt l 26

/-- R27, R106, R123, R130, R165: the check of a setup record, with `cues` cues in the queue. -/
def Setup.ok (r : Setup) (cues : Nat) : Bool :=
  decide (r.geo.ox ≤ 32767) && decide (r.geo.oy ≤ 16383) &&
  decide (r.geo.ox + r.geo.pw ≤ 32768) && decide (r.geo.oy + r.geo.ph ≤ 16384) &&
  decide (64 ≤ r.geo.pw) && decide (r.geo.pw ≤ 4096) && decide (64 ≤ r.geo.ph) && decide (r.geo.ph ≤ 4079) &&
  decide (r.geo.ph + 16 ≤ r.v) && decide (r.v ≤ 4095) && decide (r.o ≤ 4094) && decide (r.o < r.v) &&
  decide (1 ≤ r.holdoverLimit) && decide (r.holdoverLimit ≤ 1000) && decide (r.startTimeout ≤ 1000) &&
  decide (r.backlight ≤ 255) && decide (1 ≤ r.flash) && decide (r.flash ≤ 6) &&
  decide (r.cueCapacity = 8 ∨ r.cueCapacity = 16 ∨ r.cueCapacity = 32 ∨ r.cueCapacity = 64) &&
  decide (cues ≤ r.cueCapacity) &&
  decide (1 ≤ r.lookAhead) && decide (r.lookAhead ≤ 16384) &&
  decide (1 ≤ r.statusInterval) && decide (r.statusInterval ≤ 255)

/-- GLYPHS, 32 bytes: column c of a row at bit 15 - c, the four spare bits 0. -/
def glyphPack (g : Glyph) : List Byte :=
  g.rows.flatMap fun row => natBytes 2 (16 * row.toNat)

/-- GLYPHS: the glyph that 32 delivered bytes spell. -/
def glyphUnpack (l : List Byte) : Glyph :=
  Table.ofFn fun row => BitVec.ofNat 12 (field l (2 * row.val) 2 / 16)

/-- TRIGGERS, 8 bytes, with the pending strobe. -/
def Trigger.pack (strobe : Bool) (r : Trigger) : List Byte :=
  [byte r.flagSelect, boolByte r.invert, byte r.edge.code, byte r.action.code, r.window, r.param, boolByte strobe, 0]

/-- TRIGGERS: the unit that 8 delivered bytes spell. -/
def Trigger.unpack (l : List Byte) : Option Trigger := do
  let invert ← boolOfCode (byteAt l 1).toNat
  let edge ← EdgeMode.ofCode (byteAt l 2).toNat
  let action ← Action.ofCode (byteAt l 3).toNat
  return ⟨(byteAt l 0).toNat, invert, edge, action, byteAt l 4, byteAt l 5⟩

/-- R128, R135: the window and source or preset that an action uses are in range. -/
def actionOk (a : Action) (window param : Byte) : Bool :=
  match a with
  | .commit => true
  | .recall => decide (param.toNat ≤ 3)
  | .source => decide (window.toNat ≤ 31) && decide (param.toNat ≤ 31)
  | .raise | .blank | .highlight => decide (window.toNat ≤ 31)

/-- R135: the check of a trigger unit. -/
def Trigger.ok (r : Trigger) : Bool :=
  decide (r.flagSelect ≤ 33) && decide (r.action ≠ .commit) && actionOk r.action r.window r.param &&
  !(decide (r.action = .recall) && decide (r.edge = .level))

/-- CUES and the CUE_ADD payload, 12 bytes. -/
def Cue.pack (r : Cue) : List Byte :=
  [r.tag, byte r.action.code, r.window, r.param, byte r.mode.code, 0] ++ natBytes 2 r.period ++ natBytes 4 r.target.toNat

/-- CUE_ADD: the cue that 12 delivered bytes spell. -/
def Cue.unpack (l : List Byte) : Option Cue := do
  let action ← Action.ofCode (byteAt l 1).toNat
  let mode ← CueMode.ofCode (byteAt l 4).toNat
  return ⟨byteAt l 0, action, byteAt l 2, byteAt l 3, mode, field l 6 2, BitVec.ofNat 32 (field l 8 4)⟩

/-- R128, step 1: the RANGE check of a cue. -/
def Cue.ok (r : Cue) : Bool :=
  decide (r.action ≠ .blank) && decide (r.action ≠ .highlight) && actionOk r.action r.window r.param &&
  !(decide (r.mode = .repeating) && decide (r.period = 0))

/-- The window an action names, if it names one. -/
def actionWindow (a : Action) (window : Byte) : Option (Fin 32) :=
  match a with
  | .source | .raise | .blank | .highlight => some (indexOf 32 window.toNat)
  | .commit | .recall => none

end Sys2Proof.Machine
end

