-- ==== Sys2Proof/Machine/Ops.lean ====
section
/-! DEFINITION. Operations that several blocks share: counts that saturate or wrap, the check word of R142, the cells the
tile makes, the outbound side (R144, R149, R151), and the reading and writing of store pixels through a page list (R44). -/

namespace Sys2Proof.Machine

/-! ### Counts (00_scope.md, Arithmetic) -/

/-- A count raised by one that stays at `limit`. -/
def satInc (limit n : Nat) : Nat := min limit (n + 1)

/-- A 16-bit count raised by one that wraps. -/
def wrapInc (n : Nat) : Nat := (n + 1) % 65536

/-- The 16-bit counters that stop at 65535 (R152, R59, R115). -/
def satInc16 (n : Nat) : Nat := satInc 65535 n

/-- The numbers lo .. hi - 1 in order. -/
def span (lo hi : Nat) : List Nat := (List.range (hi - lo)).map (lo + ·)

/-! ### The check word (R142) -/

/-- One bit of the check: shift, and combine with the generator when the bit shifted out and the cell's bit differ. -/
def checkBit (reg : BitVec 16) (bit : Bool) : BitVec 16 :=
  if reg.msb = bit then reg <<< 1 else (reg <<< 1) ^^^ 0x1021#16

/-- One byte of the check, most significant bit first. -/
def checkByte (reg : BitVec 16) (b : Byte) : BitVec 16 :=
  [7, 6, 5, 4, 3, 2, 1, 0].foldl (fun acc i => checkBit acc (b.getLsbD i)) reg

/-- The check of a run of bytes, the register preset to all ones. -/
def checkWord (l : List Byte) : BitVec 16 := l.foldl checkByte 0xFFFF#16

/-- R142: the cell is good when the computed check equals its bytes 254 and 255. -/
def cellGood (c : Cell) : Bool :=
  decide ((checkWord (c.take Config.bodyBytes)).toNat = field c Config.bodyBytes 2)

/-- A cell the tile writes itself: its first 254 bytes and the check word. -/
def sealCell (body : List Byte) : Cell := body ++ natBytes 2 (checkWord body).toNat

/-- R144: the IDLE cell the tile makes. -/
def idleCell : Cell := sealCell (List.replicate Config.bodyBytes 0)

/-- R147: an ENUMERATE cell with its hop raised and a new check word. -/
def raiseHop (c : Cell) : Cell :=
  sealCell (c.take 8 ++ natBytes 2 (field c 8 2 + 1) ++ (c.drop 10).take 244)

/-! ### The outbound side -/

/-- A cell leaves the outbound side. -/
def Ring.send (r : Ring) (c : Cell) : Ring := { r with outbound := r.outbound ++ [c] }

/-- R149: the STATUS cell as it leaves, with the life count it carries. -/
def statusLeaving (body : List Byte) (life : Nat) : Cell := sealCell (body.set 2 (byte life))

/-- R149: the open IDLE place is given: to the waiting STATUS cell, else to the oldest REPLY cell, else the IDLE cell leaves
as it is. R151: in bypass no place is filled, and while the signal is absent nothing is sent: the place is dropped (log 4).
Where no place is open nothing happens. -/
def Ring.givePlace (r : Ring) : Ring :=
  match r.place with
  | none => r
  | some idle =>
    if r.phase = .running then
      match r.slot, r.replies with
      | some body, _ =>
        { r with place := none, slot := none, life := (r.life + 1) % 256,
                 outbound := r.outbound ++ [statusLeaving body ((r.life + 1) % 256)] }
      | none, body :: rest => { r with place := none, replies := rest, outbound := r.outbound ++ [sealCell body] }
      | none, [] => { r with place := none, outbound := r.outbound ++ [idle] }
    else if r.signal then { r with place := none, outbound := r.outbound ++ [idle] }
    else { r with place := none }

/-- An IDLE cell comes to the outbound side: a place that is still open leaves before it, so that the order of the stream
is kept. -/
def Ring.openPlace (r : Ring) (idle : Cell) : Ring := { r.givePlace with place := some idle }

/-- R144, R145: the place an arrival opens, given at once where it leaves before the arrival's own cells are offered. -/
def Ring.openPlaceFor (r : Ring) (idle : Cell) (placeFirst : Bool) : Ring :=
  if placeFirst then (r.openPlace idle).givePlace else r.openPlace idle

/-- R145: a cell is forwarded in its own outbound place. -/
def Ring.forward (r : Ring) (c : Cell) : Ring := r.givePlace.send c

/-! ### Store pixels (R44) -/

/-- R44: the byte address of word `k` of a buffer; none for a word that no page of the buffer holds. -/
def wordAddress? (pages : List Page) (k : Nat) : Option Nat :=
  (pages[k / Config.pagePixels]?).map fun p => wordAddress p (k % Config.pagePixels)

/-- R44, R68: the memory with word `k` of a buffer written. -/
def Memory.writeStore (m : Memory) (pages : List Page) (k : Nat) (c : Colour) : Memory :=
  match wordAddress? pages k with
  | some a => m.writeWord a c.word
  | none => m

/-- R44, R108: the colour of word `k` of a buffer. -/
def Memory.readStore (m : Memory) (pages : List Page) (k : Nat) : Option Colour :=
  (wordAddress? pages k).map fun a => Colour.ofWord (m.readWord a)

end Sys2Proof.Machine
end

