-- ==== Sys2Proof/Machine/Flags.lean ====
section
/-! DEFINITION. The attention set and the STATUS cells built from it (R164, R165, R166), and the evaluation of the alarm
flags by the trigger units (R136). -/

namespace Sys2Proof.Machine

/-! ### The attention set (R164) -/

/-- Table 10-3: the priority of a kind, 1 highest. -/
def EventKind.priority : EventKind → Nat
  | .linkChange => 1
  | .lockChange => 2
  | .sourceLost => 3
  | .nomem => 4
  | .repliesDropped => 5
  | .slip => 6
  | .cueLate => 7
  | .sourceStalled => 8
  | .sourceLive => 9
  | .gateOpen => 10
  | .setupTaken => 11
  | .commitTaken => 12

/-- R166: the kind of priority k at bit k - 1. -/
def EventKind.bit (k : EventKind) : BitVec 12 := 1#12 <<< (k.priority - 1)

/-- A kind is in a set of kinds. -/
def kindIn (set : BitVec 12) (k : EventKind) : Bool := set.getLsbD (k.priority - 1)

/-- R164, R166: the priority number of the first event, 0 for NONE. -/
def firstEvent (set : BitVec 12) : Nat :=
  ((List.range 12).find? fun i => set.getLsbD i).elim 0 (· + 1)

/-! ### STATUS cells (R165, R166) -/

/-- R165, Table 11-1: the STATUS cell of the tile as it stands, before its check word. The life count, at byte 2, is filled
in when the cell leaves. -/
def statusBody (s : State) : List Byte :=
  [5, byte s.cmd.address, 0, byte s.timer.lock.code, byte s.timer.gate.code, byte (firstEvent s.cmd.attention)]
  ++ natBytes 4 s.timer.wallN.toNat ++ natBytes 2 s.cmd.attention.toNat ++ natBytes 2 s.store.free.length
  ++ padTo 240 ([byte s.store.degraded, byte s.cues.queue.length] ++ natBytes 2 s.ring.repliesDropped)

/-- R148: a STATUS cell built now is offered to the slot; it replaces one that waits. -/
def offerStatus (s : State) : State :=
  { s with ring := { s.ring with slot := some (statusBody s) } }

/-- R164: a kind enters the attention set. -/
def noteEvent (k : EventKind) (s : State) : State :=
  { s with cmd := { s.cmd with attention := s.cmd.attention ||| k.bit } }

/-- R164, R165: a kind is latched; when it is in the event mask in force, a STATUS cell is built at once. -/
def latch (k : EventKind) (s : State) : State :=
  if kindIn s.timer.setup.eventMask k then offerStatus (noteEvent k s) else noteEvent k s

/-! ### Flag words (R120, R136) -/

/-- R136: the value a trigger unit reads from a flag word, after inversion; none for flag select 0, which is not
evaluated. -/
def Trigger.reads (t : Trigger) (word : BitVec 32) : Option Bool :=
  if t.flagSelect = 0 then none
  else if t.flagSelect = 1 then some (true ^^ t.invert)
  else some (word.getLsbD (t.flagSelect - 2) ^^ t.invert)

/-- R136: the unit sees an edge between previous value `p` and current value `c`. -/
def EdgeMode.sees (e : EdgeMode) (p c : Bool) : Bool :=
  match e with
  | .rising => !p && c
  | .falling => p && !c
  | .any => p != c
  | .level => false

end Sys2Proof.Machine
end

