-- ==== Sys2Proof/Machine/Mapping.lean ====
section
/-! DEFINITION. Picture mapping (02_picture_mapping.md): the visible rectangle, the source a window maps from and its
effective crop, the source-pixel map and its backward form, the source extent, colour widening and store size; and the
segments of a source line (R47). -/

namespace Sys2Proof.Machine

/-- R19: a window tours when it is enabled and its tour length is 1 or more. -/
def WinRec.tours (r : WinRec) : Bool := r.enabled && decide (1 ≤ r.tourLen)

/-- R33: the source a window maps from and is fed by (R63, R78): its source, or its current tour source when it tours. -/
def WinRec.feed (r : WinRec) (tour : Option (Fin 32)) : Option (Fin 32) :=
  if r.tours then tour else some r.source

/-- R30: the visible rectangle of a window, none where the window is not visible on the tile. -/
def visibleRect (g : Geometry) (r : WinRec) : Option VisRect :=
  let x0 := max r.x g.ox
  let x1 := min (r.x + r.w) (g.ox + g.pw)
  let y0 := max r.y g.oy
  let y1 := min (r.y + r.h) (g.oy + g.ph)
  if x0 < x1 ∧ y0 < y1 then some ⟨x0, y0, x1 - x0, y1 - y0⟩ else none

/-- R44: the pages of one buffer of a visible rectangle. -/
def pagesPerBuffer (v : VisRect) : Nat := ceilDiv (v.w * v.h) Config.pagePixels

/-- R33: an effective crop. -/
structure Crop where
  cx : Nat
  cy : Nat
  cw : Nat
  ch : Nat
  deriving DecidableEq, Repr

/-- R33: the effective crop: the record's crop, or the whole of the source a touring window maps from. -/
def effectiveCrop (r : WinRec) (src : SourceRec) : Crop :=
  if r.tours then ⟨0, 0, src.sw, src.sh⟩ else ⟨r.cx, r.cy, r.cw, r.ch⟩

/-- R34, one axis: the source offset that window offset `i` of `size` takes in a crop of `ext`. -/
def mapOffset (size ext i : Nat) : Nat := (2 * i + 1) * ext / (2 * size)

/-- R34: the source pixel of the window pixel at offsets i, j. -/
def mapPixel (r : WinRec) (c : Crop) (i j : Nat) : Nat × Nat :=
  (c.cx + mapOffset r.w c.cw i, c.cy + mapOffset r.h c.ch j)

/-- R37, one axis: the smallest window offset whose source offset is t or more: the larger of 0 and
ceil((2 size t - ext) / (2 ext)). -/
def firstOffset (size ext t : Nat) : Nat := ceilDiv (2 * size * t - ext) (2 * ext)

/-- R38: a source pixel lies beyond the source extent. -/
def beyondExtent (src : SourceRec) (p : Nat × Nat) : Bool :=
  decide (src.sw ≤ p.1) || decide (src.sh ≤ p.2)

/-- R47, Table 3-2: the pixels of one strip. -/
def PixFormat.perStrip : PixFormat → Nat
  | .mono8 => 240
  | .rgb8 => 80
  | .rgb10 => 60

/-- R47: the segments of a source line. -/
def SourceRec.segments (r : SourceRec) : Nat := ceilDiv r.sw r.format.perStrip

/-- R47: the strips of a source frame. -/
def SourceRec.strips (r : SourceRec) : Nat := r.sh * r.segments

/-- R43: an 8-bit component widened to 10 bits. -/
def widen8 (v : Byte) : BitVec 10 := BitVec.ofNat 10 (4 * v.toNat + v.toNat / 64)

/-- R43, R47: the colour of pixel `k` of a STRIP payload. -/
def stripColour (f : PixFormat) (pixels : List Byte) (k : Nat) : Colour :=
  match f with
  | .mono8 => let v := widen8 (byteAt pixels k); ⟨v, v, v⟩
  | .rgb8 => ⟨widen8 (byteAt pixels (3 * k)), widen8 (byteAt pixels (3 * k + 1)), widen8 (byteAt pixels (3 * k + 2))⟩
  | .rgb10 => colourAt pixels (4 * k)

end Sys2Proof.Machine
end

