-- ==== Sys2Proof/Machine/Stores.lean ====
section
/-! DEFINITION. The Store Manager (05_frame_stores.md): what source frame boundaries, source switches, freezing and frame
marks do to a window's buffers, and allocation. -/

namespace Sys2Proof.Machine

/-! ### One window's buffers -/

/-- The buffer is FILLING. -/
def Role.isFilling : Role → Bool
  | .filling _ => true
  | _ => false

/-- The window holds a buffer of a role. -/
def WinStore.holds (w : WinStore) (p : Role → Bool) : Bool := w.bufs.any fun b => p b.role

/-- The window's SHOWING buffer. -/
def WinStore.showing? (w : WinStore) : Option Buffer := w.bufs.find? fun b => decide (b.role = .showing)

/-- R78: where a buffer goes that is moved to SPARE: in a window of two buffers it becomes FILLING ARMED instead. -/
def spareRole (held : Nat) : Role := if held = 2 then .filling .armed else .spare

/-- R79: a frame start makes the ARMED buffer WRITING with the frame's tag. -/
def Role.started (tag : Byte) : Role → Role
  | .filling .armed => .filling (.writing tag)
  | r => r

/-- R79, for one window. -/
def WinStore.onStart (w : WinStore) (s : Fin 32) (tag : Byte) (mode : DisplayMode) : WinStore :=
  if w.feeding = some s ∧ mode = .live then
    { w with bufs := w.bufs.map fun b => { b with role := b.role.started tag } }
  else w

/-- The FILLING buffer receives the frame of a tag. -/
def Role.isWriting (tag : Byte) (r : Role) : Bool := decide (r = .filling (.writing tag))

/-- R80: one buffer of a window of three at a completion. The buffer that was WRITING the frame becomes READY with its
picture mark; the older READY buffer, or else the SPARE buffer, becomes FILLING ARMED. -/
def Buffer.completed (tag : Byte) (hadReady : Bool) (b : Buffer) : Buffer :=
  if b.role.isWriting tag then { b with role := .ready, mark := true }
  else if b.role = .ready then { b with role := .filling .armed }
  else if b.role = .spare ∧ hadReady = false then { b with role := .filling .armed }
  else b

/-- R80, R81: an accepted completion, for one window. -/
def WinStore.onComplete (w : WinStore) (s : Fin 32) (tag : Byte) (mode : DisplayMode) : WinStore :=
  if w.feeding = some s then
    if w.bufs.length = 3 ∧ w.holds (Role.isWriting tag) = true then
      let hadReady := w.holds (fun r => decide (r = .ready))
      { w with bufs := w.bufs.map (Buffer.completed tag hadReady),
               dropped := if hadReady then wrapInc w.dropped else w.dropped }
    else if w.bufs.length = 2 ∧ w.holds (Role.isWriting tag) = true then
      { w with bufs := w.bufs.map fun b => if b.role.isWriting tag then { b with role := .ready, mark := true } else b }
    else if w.bufs.length = 1 ∧ mode = .live then
      { w with bufs := w.bufs.map fun b => if b.role = .showing then { b with mark := true } else b,
               shown := wrapInc w.shown }
    else w
  else w

/-- R82: a rejected completion, for one window. -/
def WinStore.onReject (w : WinStore) (s : Fin 32) (tag : Byte) : WinStore :=
  if w.feeding = some s then
    { w with bufs := w.bufs.map fun b => if b.role.isWriting tag then { b with role := .filling .armed } else b }
  else w

/-- R86, R87: one role when a window's buffers are re-armed. -/
def Role.rearmed (held : Nat) : Role → Role
  | .ready => spareRole held
  | .filling _ => .filling .armed
  | .showing => .showing
  | .spare => .spare

/-- R86, R87: READY is discarded, WRITING becomes ARMED, SHOWING is kept. -/
def WinStore.rearm (w : WinStore) : WinStore :=
  { w with bufs := w.bufs.map fun b => { b with role := b.role.rearmed w.bufs.length } }

/-- R86: a source switch of a window that holds buffers: re-armed, and fed by the source that now feeds it. -/
def WinStore.switched (w : WinStore) (feed : Option (Fin 32)) : WinStore :=
  if w.bufs = [] then w else { w.rearm with feeding := feed }

/-- R84: one role at a swap. -/
def Role.swapped (held : Nat) : Role → Role
  | .ready => .showing
  | .showing => spareRole held
  | r => r

/-- R84, R85: step 4 of R83, for one window. `live` says that the feeding source is LIVE. -/
def WinStore.atMark (w : WinStore) (mode : DisplayMode) (live : Bool) : WinStore :=
  if 2 ≤ w.bufs.length ∧ mode = .live then
    if w.holds (fun r => decide (r = .ready)) then
      { w with bufs := w.bufs.map fun b => { b with role := b.role.swapped w.bufs.length }, shown := wrapInc w.shown }
    else if live then { w with repeated := wrapInc w.repeated }
    else w
  else w

/-- R93: the held buffers in the order SHOWING, FILLING, READY, SPARE; R89 frees them in the same order. -/
def WinStore.listed (w : WinStore) : List Buffer :=
  w.bufs.filter (fun b => decide (b.role = .showing)) ++ (w.bufs.filter (fun b => b.role.isFilling) ++
    (w.bufs.filter (fun b => decide (b.role = .ready)) ++ w.bufs.filter (fun b => decide (b.role = .spare))))

/-! ### Reports (R79 to R82, R86) -/

/-- Every window's store changed by `f`. -/
def StoreManager.mapWins (m : StoreManager) (f : Fin 32 → WinStore → WinStore) : StoreManager :=
  { m with wins := Table.ofFn fun n => f n (m.wins.get n) }

/-- R79: a frame start of source s with a tag. -/
def StoreManager.frameStart (m : StoreManager) (active : Table WinRec 32) (s : Fin 32) (tag : Byte) : StoreManager :=
  m.mapWins fun n w => w.onStart s tag (active.get n).mode

/-- R80 to R82: a frame end of source s with a tag, judged complete or rejected. -/
def StoreManager.frameEnd (m : StoreManager) (active : Table WinRec 32) (s : Fin 32) (tag : Byte) (complete : Bool) :
    StoreManager :=
  m.mapWins fun n w => if complete then w.onComplete s tag (active.get n).mode else w.onReject s tag

/-- R86: a source record rewrite re-arms every window that the source feeds. -/
def StoreManager.rewritten (m : StoreManager) (s : Fin 32) : StoreManager :=
  m.mapWins fun _ w => if w.feeding = some s then w.switched (some s) else w

/-! ### Allocation (R88 to R92) -/

/-- What the Scene Controller and the Frame Timer hand over at a frame mark (R23, R28). -/
structure HandOver where
  active : Table WinRec 32
  activeList : List (Fin 32)
  tours : Table (Option (Fin 32)) 32
  geo : Geometry
  changes : Table WinChange 32
  switched : List (Fin 32)
  geoChanged : Bool
  deriving DecidableEq, Repr

/-- The source that feeds window n in the active scene handed over. -/
def HandOver.feed (h : HandOver) (n : Fin 32) : Option (Fin 32) := (h.active.get n).feed (h.tours.get n)

/-- R88, R90, R92: a display mode that needs a store. -/
def DisplayMode.stores (m : DisplayMode) : Bool :=
  match m with
  | .live | .freeze => true
  | .solid | .pattern | .hidden => false

/-- R90: the visible rectangle of a window that needs a store: enabled, visible, LIVE or FREEZE. -/
def HandOver.storeRect (h : HandOver) (n : Fin 32) : Option VisRect :=
  let r := h.active.get n
  if r.enabled && r.mode.stores then visibleRect h.geo r else none

/-- R88: the keep rule for a window that held buffers. -/
def HandOver.keeps (h : HandOver) (n : Fin 32) (w : WinStore) : Bool :=
  let c := h.changes.get n
  decide (h.storeRect n = some w.sized) && !c.enabled && !c.source && !c.tour &&
    ((h.active.get n).tours || !c.crop)

/-- R83, step 1: the windows reported as switched, and those whose feeding source differs from the one that now feeds
them. -/
def StoreManager.markSwitches (m : StoreManager) (h : HandOver) : StoreManager :=
  m.mapWins fun n w =>
    if h.switched.contains n || decide (w.feeding ≠ h.feed n) then w.switched (h.feed n) else w

/-- R88: a window kept while its rectangle changed is re-armed. -/
def StoreManager.rearmMoved (m : StoreManager) (h : HandOver) : StoreManager :=
  m.mapWins fun n w => if w.bufs ≠ [] ∧ h.keeps n w = true ∧ (h.changes.get n).rect = true then w.rearm else w

/-- R89: one window's buffers are freed. DESIGN CHOICE (log 7): the sized rectangle, which R78 keeps only until now, stays as
it was; no rule reads it until the next buffer records a new one. -/
def StoreManager.freeWindow (m : StoreManager) (n : Fin 32) : StoreManager :=
  let w := m.wins.get n
  { m with free := m.free ++ w.listed.flatMap (·.pages),
           wins := m.wins.set n { w with bufs := [], feeding := none } }

/-- R89: the windows that held buffers and do not keep them, window 0 first. -/
def StoreManager.freeLosers (m : StoreManager) (h : HandOver) : StoreManager :=
  (indices 32).foldl
    (fun acc n => if (acc.wins.get n).bufs ≠ [] ∧ h.keeps n (acc.wins.get n) = false then acc.freeWindow n else acc) m

/-- R90: the role of a buffer given to a window that holds `w`. -/
def givenRole (w : WinStore) : Role :=
  if w.bufs.length = 0 then .showing
  else if w.bufs.length = 1 then .filling .armed
  else if w.holds Role.isFilling then .spare
  else .filling .armed

/-- R90, R91: window n is given one buffer of the visible rectangle `v`, filled with the window's fill colour. With its
first buffer the feeding source and the sized rectangle are recorded (R78). -/
def StoreManager.give (m : StoreManager) (h : HandOver) (n : Fin 32) (v : VisRect) : StoreManager :=
  let w := m.wins.get n
  let pages := m.free.take (pagesPerBuffer v)
  let first := decide (w.bufs.length = 0)
  { m with
    free := m.free.drop (pagesPerBuffer v)
    mem := m.mem.fillPages pages (h.active.get n).fill.word
    wins := m.wins.set n
      { w with bufs := w.bufs ++ [⟨pages, givenRole w, false⟩],
               feeding := if first then h.feed n else w.feeding,
               sized := if first then v else w.sized } }

/-- R90: window n in the pass that serves windows holding `held` buffers. -/
def StoreManager.serve (m : StoreManager) (h : HandOver) (held : Nat) (n : Fin 32) : StoreManager :=
  match h.storeRect n with
  | some v =>
    if (m.wins.get n).bufs.length = held ∧ pagesPerBuffer v ≤ m.free.length then m.give h n v else m
  | none => m

/-- R90: one pass over the active list, front to back. -/
def StoreManager.servePass (m : StoreManager) (h : HandOver) (held : Nat) : StoreManager :=
  h.activeList.foldl (fun acc n => acc.serve h held n) m

/-- R92: the number of windows that need a store and hold fewer than three buffers. -/
def StoreManager.countDegraded (m : StoreManager) (h : HandOver) : Nat :=
  ((indices 32).filter fun n => (h.storeRect n).isSome && decide ((m.wins.get n).bufs.length < 3)).length

/-- R88 to R92: an allocation. -/
def StoreManager.allocate (m : StoreManager) (h : HandOver) : StoreManager :=
  let served := ((((m.rearmMoved h).freeLosers h).servePass h 0).servePass h 1).servePass h 2
  { served with degraded := served.countDegraded h }

/-- R83, step 2: allocation runs when the change set records a changed window or the geometry changed. -/
def HandOver.allocates (h : HandOver) : Bool := h.geoChanged || h.changes.rows.any WinChange.any

/-- R87: step 3 of R83. -/
def StoreManager.freezeEntry (m : StoreManager) (h : HandOver) : StoreManager :=
  m.mapWins fun n w =>
    if (h.active.get n).mode = .freeze ∧ (h.changes.get n).mode = true then w.rearm else w

/-- R84, R85: step 4 of R83, with the source states as the Source Tracker holds them. -/
def StoreManager.swaps (m : StoreManager) (h : HandOver) (states : Table SourceTrack 32) : StoreManager :=
  m.mapWins fun n w =>
    w.atMark (h.active.get n).mode (w.feeding.elim false fun s => decide ((states.get s).state = .live))

/-- R62, R83: the scene, tour sources and geometry published to the Intake Engine. -/
def StoreManager.publish (m : StoreManager) (h : HandOver) : StoreManager :=
  { m with pub := ⟨h.active, h.tours, h.geo⟩ }

/-- R83: the Store Manager's work at a frame mark, in its order; the degraded count stays where no allocation runs. -/
def StoreManager.atMark (m : StoreManager) (h : HandOver) (states : Table SourceTrack 32) : StoreManager :=
  let switched := m.markSwitches h
  let allocated := if h.allocates then switched.allocate h else switched
  ((allocated.freezeEntry h).swaps h states).publish h

/-- R95: the tile reset of the Store Manager, with the cleared scene published (R62). -/
def StoreManager.tileReset (m : StoreManager) (g : Geometry) : StoreManager :=
  { m with free := indices 8192, wins := Table.fill 32 WinStore.empty, degraded := 0,
           pub := ⟨Table.fill 32 WinRec.default, Table.fill 32 none, g⟩ }

end Sys2Proof.Machine
end

