-- ==== Sys2Proof/Machine/SceneOps.lean ====
section
/-! DEFINITION. The Scene Controller (01_windows_and_scenes.md): stacking lists, shadow writes, presets, RAISE and SOURCE
actions, blank and highlight, commit with its change set, and tours. -/

namespace Sys2Proof.Machine

/-! ### Stacking lists (R6 to R8, R14) -/

/-- The windows of a list that are pinned in a table. -/
def tierOf (t : Table WinRec 32) (pinned : Bool) (l : List (Fin 32)) : List (Fin 32) :=
  l.filter fun n => decide ((t.get n).pinned = pinned)

/-- The list without window n. -/
def without (n : Fin 32) (l : List (Fin 32)) : List (Fin 32) := l.filter fun m => decide (m ≠ n)

/-- Window n at the front of its tier, the others in their order, pinned tier in front. -/
def enterFront (t : Table WinRec 32) (n : Fin 32) (l : List (Fin 32)) : List (Fin 32) :=
  let rest := without n l
  if (t.get n).pinned then n :: (tierOf t true rest ++ tierOf t false rest)
  else tierOf t true rest ++ n :: tierOf t false rest

/-- R7, Table 1-3: the shadow list after window n's record changed from `before` to what table `t` now holds. -/
def relist (t : Table WinRec 32) (n : Fin 32) (before : WinRec) (l : List (Fin 32)) : List (Fin 32) :=
  let after := t.get n
  if after.enabled = false then without n l
  else if before.enabled = true ∧ before.pinned = after.pinned then l
  else enterFront t n l

/-- R8: the operations of STACK. -/
inductive StackOp where | raise | lower | front | back
  deriving DecidableEq, Repr

def StackOp.ofCode : Nat → Option StackOp
  | 0 => some .raise
  | 1 => some .lower
  | 2 => some .front
  | 3 => some .back
  | _ => none

/-- Window n changes places with the window just in front of it. -/
def swapForward (n : Fin 32) : List (Fin 32) → List (Fin 32)
  | a :: b :: rest => if b = n then b :: a :: rest else a :: swapForward n (b :: rest)
  | l => l

/-- Window n changes places with the window just behind it. -/
def swapBack (n : Fin 32) : List (Fin 32) → List (Fin 32)
  | a :: b :: rest => if a = n then b :: a :: rest else a :: swapBack n (b :: rest)
  | l => l

/-- R8, Table 1-4: an operation inside one tier. -/
def StackOp.inTier (op : StackOp) (n : Fin 32) (l : List (Fin 32)) : List (Fin 32) :=
  match op with
  | .raise => swapForward n l
  | .lower => swapBack n l
  | .front => if l.contains n then n :: without n l else l
  | .back => if l.contains n then without n l ++ [n] else l

/-- R8: an operation on a list, within window n's tier. -/
def StackOp.apply (op : StackOp) (t : Table WinRec 32) (n : Fin 32) (l : List (Fin 32)) : List (Fin 32) :=
  if (t.get n).pinned then op.inTier n (tierOf t true l) ++ tierOf t false l
  else tierOf t true l ++ op.inTier n (tierOf t false l)

/-! ### Shadow writes (R2, R5, R7) -/

/-- R2, R5: a record is written to the shadow table: every field but the revision, which is raised by one; the shadow list
changes in the same write (R7). -/
def Scene.writeShadow (s : Scene) (n : Fin 32) (r : WinRec) : Scene :=
  let before := s.shadow.get n
  let table := s.shadow.set n { r with revision := wrapInc before.revision }
  { s with shadow := table, shadowList := relist table n before s.shadowList }

/-- R160, one axis: a position moved and clamped so that the window stays on the canvas. -/
def nudged (pos : Nat) (d : Int) (size limit : Nat) : Nat :=
  let p := (pos : Int) + d
  if p < 0 then 0 else if (limit : Int) < p + size then limit - size else p.toNat

/-- R160: a NUDGE of window n. -/
def Scene.nudge (s : Scene) (n : Fin 32) (dx dy : Int) : Scene :=
  let r := s.shadow.get n
  s.writeShadow n { r with x := nudged r.x dx r.w 32768, y := nudged r.y dy r.h 16384 }

/-! ### Presets (R16 to R18) -/

/-- R16: PRESET_SAVE. -/
def Scene.savePreset (s : Scene) (p : Fin 4) : Scene :=
  let saved : Preset :=
    { valid := true
      slots := s.shadow.map fun r => if r.pinned then none else some r
      list := tierOf s.shadow false s.shadowList }
  { s with presets := s.presets.set p saved }

/-- R17: the shadow record at an index after the load of a slot. -/
def loadedRecord (old : WinRec) (slot : Option WinRec) : WinRec :=
  if old.pinned then old
  else match slot with
    | none => { WinRec.default with revision := wrapInc old.revision }
    | some r => { r with revision := wrapInc old.revision }

/-- R17, R18: a preset load: the records, the list, and the recall note. -/
def Scene.loadPreset (s : Scene) (p : Fin 4) : Scene :=
  let preset := s.presets.get p
  let table : Table WinRec 32 := Table.ofFn fun n => loadedRecord (s.shadow.get n) (preset.slots.get n)
  { s with
    shadow := table
    shadowList := tierOf s.shadow true s.shadowList ++ preset.list.filter (fun n => !(table.get n).pinned)
    recallNote := true }

/-- R18: a RECALL action. -/
def Scene.recall (s : Scene) (p : Fin 4) : Scene :=
  if (s.presets.get p).valid then { s.loadPreset p with commitPending := true } else s

/-! ### RAISE and SOURCE actions (R14, R15) -/

/-- R14: window n to the front of its tier in a list; a list in which it does not stand is unchanged. -/
def raised (t : Table WinRec 32) (n : Fin 32) (l : List (Fin 32)) : List (Fin 32) :=
  if l.contains n then enterFront t n l else l

/-- R14: a RAISE action. -/
def Scene.raise (s : Scene) (n : Fin 32) : Scene :=
  { s with shadowList := raised s.shadow n s.shadowList, activeList := raised s.active n s.activeList }

/-- R15: a SOURCE action. -/
def Scene.setSource (s : Scene) (n : Fin 32) (source : Fin 32) : Scene :=
  let rev := wrapInc (s.shadow.get n).revision
  { s with
    shadow := s.shadow.modify n fun r => { r with source := source, revision := rev }
    active := s.active.modify n fun r => { r with source := source, revision := rev } }

/-- R15: the SOURCE action switches window n in place. -/
def Scene.sourceSwitches (s : Scene) (n : Fin 32) (source : Fin 32) : Bool :=
  let r := s.active.get n
  r.enabled && !r.tours && decide (r.source ≠ source)

/-! ### Blank and highlight (R12, R13) -/

/-- The requests of Table 1-5. -/
inductive AlarmRequest where | levelOn | levelOff | latch
  deriving DecidableEq, Repr

/-- R12, Table 1-5. -/
def AlarmState.request (a : AlarmState) (q : AlarmRequest) : AlarmState :=
  match q, a with
  | .latch, _ => .latched
  | _, .latched => .latched
  | .levelOn, _ => .level
  | .levelOff, _ => .off

/-- R12: a request reaches a window that is enabled in the active table, and no other. -/
def Scene.requestBlank (s : Scene) (n : Fin 32) (q : AlarmRequest) : Scene :=
  if (s.active.get n).enabled then
    { s with wins := s.wins.modify n fun w => { w with blank := w.blank.request q } }
  else s

/-- R12, for the highlight. -/
def Scene.requestHighlight (s : Scene) (n : Fin 32) (q : AlarmRequest) : Scene :=
  if (s.active.get n).enabled then
    { s with wins := s.wins.modify n fun w => { w with highlight := w.highlight.request q } }
  else s

/-- R13: the pending clears of one window are taken. -/
def WinState.takeClears (w : WinState) (enabled : Bool) : WinState :=
  { w with
    blank := if w.blankClear && enabled then .off else w.blank
    highlight := if w.highlightClear && enabled then .off else w.highlight
    blankClear := false
    highlightClear := false }

/-- R13: the pending clears of every window. -/
def Scene.takeClears (s : Scene) : Scene :=
  { s with wins := Table.ofFn fun n => (s.wins.get n).takeClears (s.active.get n).enabled }

/-! ### Commit (R10, R11, R14, R19) -/

/-- R11: the tours of two records differ: the tour length or one of the first tour-length entries. -/
def tourDiffers (a b : WinRec) : Bool :=
  decide (a.tourLen ≠ b.tourLen) || decide (a.tourList.rows.take a.tourLen ≠ b.tourList.rows.take b.tourLen)

/-- R11: any other field differs (log 14). -/
def otherDiffers (a b : WinRec) : Bool :=
  decide (a.pinned ≠ b.pinned) || decide (a.loss ≠ b.loss) || decide (a.fill ≠ b.fill) ||
  decide (a.borderWidth ≠ b.borderWidth) || decide (a.border ≠ b.border) || decide (a.stale ≠ b.stale) ||
  decide (a.alarm ≠ b.alarm) || decide (a.capPlace ≠ b.capPlace) || decide (a.capSize ≠ b.capSize) ||
  decide (a.capFg ≠ b.capFg) || decide (a.capBg ≠ b.capBg) || decide (a.capLen ≠ b.capLen) ||
  decide (a.capText ≠ b.capText) || decide (a.revision ≠ b.revision)

/-- R11: the change of one window at a commit. -/
def winChange (before after : WinRec) : WinChange :=
  if before.enabled = false ∧ after.enabled = false then WinChange.none
  else
    { enabled := decide (before.enabled ≠ after.enabled)
      source := decide (before.source ≠ after.source)
      tour := tourDiffers before after
      dwell := decide (before.dwell ≠ after.dwell)
      rect := decide ((before.x, before.y, before.w, before.h) ≠ (after.x, after.y, after.w, after.h))
      crop := decide ((before.cx, before.cy, before.cw, before.ch) ≠ (after.cx, after.cy, after.cw, after.ch))
      mode := decide (before.mode ≠ after.mode)
      other := otherDiffers before after }

/-- R19: the commit sets the window's tour epoch to N. -/
def restartsTour (before after : WinRec) (recallNote : Bool) : Bool :=
  after.tours &&
    (!before.enabled || decide (before.tourLen = 0) || (winChange before after).tour ||
      (winChange before after).dwell || recallNote)

/-- R10, R14, R19: the active window state of one window at a commit. -/
def WinState.committed (w : WinState) (before after : WinRec) (recallNote : Bool) (n : BitVec 32) : WinState :=
  if before.enabled = true ∧ after.enabled = false then WinState.cleared
  else
    { w with
      epoch := if restartsTour before after recallNote then n else w.epoch
      tourSource := if after.tours then w.tourSource else none }

/-- R11: the change set of a commit of the shadow scene. -/
def Scene.changeSet (s : Scene) : Table WinChange 32 :=
  Table.ofFn fun n => winChange (s.active.get n) (s.shadow.get n)

/-- R10: a commit at a mark whose wall frame number is n. -/
def Scene.commit (s : Scene) (n : BitVec 32) : Scene :=
  { s with
    active := s.shadow
    activeList := s.shadowList
    commitPending := false
    recallNote := false
    wins := Table.ofFn fun k =>
      (s.wins.get k).committed (s.active.get k) (s.shadow.get k) s.recallNote n }

/-! ### Tours (R20, R21) -/

/-- R20: the epoch after the computation of the step: N when N is below the epoch. -/
def tourEpoch (n epoch : BitVec 32) : BitVec 32 :=
  if (n - epoch).toNat < 2 ^ 31 then epoch else n

/-- R20: the tour step, from the distance d = (N - E) modulo 2^32, the dwell and the tour length. -/
def tourStepAt (n epoch : BitVec 32) (dwell len : Nat) : Nat :=
  let d := (n - epoch).toNat
  if d < 2 ^ 31 then d / (dwell + 1) % len else 0

/-- R20: the source of the step. -/
def WinRec.tourEntry (r : WinRec) (step : Nat) : Fin 32 := r.tourList.get (indexOf 8 step)

/-- R20, R21: the active window state of a touring window at a mark. -/
def WinState.toured (w : WinState) (r : WinRec) (n : BitVec 32) : WinState :=
  if r.tours then
    { w with epoch := tourEpoch n w.epoch
             tourSource := some (r.tourEntry (tourStepAt n w.epoch r.dwell r.tourLen)) }
  else w

/-- R20, R21: window k takes its tour step. -/
def Scene.tourStep (s : Scene) (k : Fin 32) (n : BitVec 32) : Scene :=
  { s with wins := s.wins.set k ((s.wins.get k).toured (s.active.get k) n) }

/-- R21: the tour step of window k changes its current tour source. -/
def Scene.tourMoves (s : Scene) (k : Fin 32) (n : BitVec 32) : Bool :=
  decide (((s.tourStep k n).wins.get k).tourSource ≠ (s.wins.get k).tourSource)

/-- R22, step 4: the tour steps of every window. -/
def Scene.tourSteps (s : Scene) (n : BitVec 32) : Scene :=
  (indices 32).foldl (fun acc k => acc.tourStep k n) s

/-- R21: the windows switched in place by a tour step: those the change set does not show. -/
def Scene.tourSwitches (s : Scene) (changes : Table WinChange 32) (n : BitVec 32) : List (Fin 32) :=
  (indices 32).filter fun k => s.tourMoves k n && !(changes.get k).any

/-! ### Tile reset (R25) -/

def Scene.tileReset (s : Scene) : Scene :=
  { s with
    active := Table.fill 32 WinRec.default
    activeList := []
    commitPending := false
    recallNote := false
    wins := Table.fill 32 WinState.cleared }

end Sys2Proof.Machine
end

