-- ==== Sys2Proof/Machine/Intake.lean ====
section
/-! DEFINITION. Strip intake (04_strip_intake.md): which windows an accepted strip feeds, the buffer that receives it, and
the store pixels it writes. Every input but the source record and the buffers is what the Store Manager has published
(R62). -/

namespace Sys2Proof.Machine

/-- R64: the buffer that a window offers to a strip of frame tag `tag`. -/
def WinStore.receives (w : WinStore) (tag : Byte) : Option Buffer :=
  if w.bufs.length = 1 then w.showing?
  else if 2 ≤ w.bufs.length then w.bufs.find? fun b => b.role.isWriting tag
  else none

/-- R63, Table 4-1: the conditions on the published scene for a strip of source s to feed window n; the answer is the
window's visible rectangle. -/
def Published.fedRect (p : Published) (s : Fin 32) (n : Fin 32) : Option VisRect :=
  let r := p.active.get n
  if r.enabled = true ∧ r.feed (p.tours.get n) = some s ∧ r.mode = .live then visibleRect p.geo r else none

/-- R66, R67, one axis: the window offsets that take source offsets `ta .. tb` of a crop of `ext`, clipped to the `len`
offsets from `start` that lie in the visible rectangle. -/
def fedOffsets (size ext ta tb start len : Nat) : List Nat :=
  span (max (firstOffset size ext ta) start) (min (firstOffset size ext (tb + 1)) (start + len))

/-- R66: the window rows that a strip at source line `line` feeds. -/
def fedRows (r : WinRec) (c : Crop) (v : VisRect) (line : Nat) : List Nat :=
  if c.cy ≤ line ∧ line < c.cy + c.ch then fedOffsets r.h c.ch (line - c.cy) (line - c.cy) (v.y0 - r.y) v.h else []

/-- R67: the window columns that a strip of `perStrip` pixels at a segment feeds, of a source `sw` pixels wide. -/
def fedColumns (r : WinRec) (c : Crop) (v : VisRect) (sw perStrip segment : Nat) : List Nat :=
  let c0 := max (segment * perStrip) c.cx
  let c1 := min (min (segment * perStrip + perStrip) sw) (c.cx + c.cw)
  if c0 < c1 then fedOffsets r.w c.cw (c0 - c.cx) (c1 - 1 - c.cx) (v.x0 - r.x) v.w else []

/-- R68: the store pixels a strip writes into a buffer sized for the visible rectangle `v`: word numbers and colours. -/
def stripWrites (r : WinRec) (src : SourceRec) (v : VisRect) (st : Strip) : List (Nat × Colour) :=
  let c := effectiveCrop r src
  (fedRows r c v st.line).flatMap fun j =>
    (fedColumns r c v src.sw src.format.perStrip st.segment).map fun i =>
      ((j - (v.y0 - r.y)) * v.w + (i - (v.x0 - r.x)),
        stripColour src.format st.pixels (c.cx + mapOffset r.w c.cw i - st.segment * src.format.perStrip))

/-- R68: store pixels written into a buffer. -/
def Memory.writePixels (m : Memory) (pages : List Page) (l : List (Nat × Colour)) : Memory :=
  l.foldl (fun acc w => acc.writeStore pages w.1 w.2) m

/-- R62: what a strip of source s writes into window n. -/
def StoreManager.intakeWindow (m : StoreManager) (src : SourceRec) (s : Fin 32) (st : Strip) (n : Fin 32) : StoreManager :=
  match m.pub.fedRect s n, (m.wins.get n).receives st.tag with
  | some v, some b => { m with mem := m.mem.writePixels b.pages (stripWrites (m.pub.active.get n) src v st) }
  | _, _ => m

/-- R62: an accepted strip of source s, for every window. -/
def StoreManager.intake (m : StoreManager) (src : SourceRec) (s : Fin 32) (st : Strip) : StoreManager :=
  (indices 32).foldl (fun acc n => acc.intakeWindow src s st n) m

end Sys2Proof.Machine
end

