-- ==== Sys2Proof/Machine/SourceOps.lean ====
section
/-! DEFINITION. The Source Tracker (03_sources.md): record rewrites, strip validation, frame starts and ends, and the
source states. -/

namespace Sys2Proof.Machine

/-- One source's track changed. -/
def State.setTrack (s : State) (n : Fin 32) (t : SourceTrack) : State :=
  { s with src := { s.src with states := s.src.states.set n t } }

/-! ### Record writes (R46, R48) -/

/-- R48: what a written record does to the source's track. -/
def SourceTrack.rewritten (t : SourceTrack) (enabled : Bool) : SourceTrack :=
  { t with state := if enabled then .waiting else .off, tag := none, frameOpen := false, accepted := 0,
           lastLine := 0, lastSegment := 0, sinceStart := 0 }

/-- R46, R48: a source record is written, with its revision raised, the open frame abandoned, and the windows the source
feeds re-armed. -/
def State.writeSource (s : State) (n : Fin 32) (r : SourceRec) : State :=
  { s with
    src :=
      { records := s.src.records.set n { r with revision := wrapInc (s.src.records.get n).revision }
        states := s.src.states.set n ((s.src.states.get n).rewritten r.enabled) }
    store := s.store.rewritten n }

/-! ### Strips (R49 to R53, R56, R58) -/

/-- The outcomes of the header checks of R49. -/
inductive StripCheck where
  /-- Check 1: no such source. -/
  | noSource
  /-- Checks 2 to 4. -/
  | discarded (source : Fin 32)
  | valid (source : Fin 32)
  deriving DecidableEq, Repr

/-- R49, checks 2 to 4. -/
def SourceRec.accepts (r : SourceRec) (st : Strip) : Bool :=
  r.enabled && decide (st.format = r.format.code) && decide (st.line < r.sh) && decide (st.segment < r.segments)

/-- R49: the header checks, in order. -/
def checkStrip (records : Table SourceRec 32) (st : Strip) : StripCheck :=
  match index? 32 st.source with
  | none => .noSource
  | some n => if (records.get n).accepts st then .valid n else .discarded n

/-- R50: the strip is a frame start. -/
def SourceTrack.isStart (t : SourceTrack) (st : Strip) : Bool :=
  decide (st.line = 0) && decide (st.segment = 0) && decide (t.tag ≠ some st.tag)

/-- R51: the strip's position is after the last accepted one. -/
def SourceTrack.isAfter (t : SourceTrack) (st : Strip) : Bool :=
  decide (t.lastLine < st.line) || (decide (st.line = t.lastLine) && decide (t.lastSegment < st.segment))

/-- R56: a complete frame makes a source LIVE. -/
def State.sourceLive (s : State) (n : Fin 32) : State :=
  let t := s.src.states.get n
  let s1 := s.setTrack n { t with sinceStart := 0, state := if t.state = .off then .off else .live }
  match t.state with
  | .waiting | .stalled | .lost => latch .sourceLive s1
  | .live | .off => s1

/-- R53: the frame's missing count is at or below the missing limit. -/
def SourceTrack.isComplete (t : SourceTrack) (r : SourceRec) : Bool :=
  decide (r.strips - t.accepted ≤ r.missingLimit)

/-- R53: the open frame of a source is judged at its end: the counters, the report to the Store Manager (R80 to R82), and
the source state (R56). The frame is then no longer open and the tag is kept (R52). -/
def State.endFrame (s : State) (n : Fin 32) : State :=
  let t := s.src.states.get n
  let complete := t.isComplete (s.src.records.get n)
  let t1 := { t with frameOpen := false
                     completed := if complete then wrapInc t.completed else t.completed
                     rejected := if complete then t.rejected else satInc16 t.rejected }
  let s1 := s.setTrack n t1
  let s2 := { s1 with store := s1.store.frameEnd s1.scene.active n (t.tag.getD 0) complete }
  if complete then s2.sourceLive n else s2

/-- R50, steps 2 and 3: a new frame is opened and its start reported (R79); the start phase and the running start count
(R58). -/
def State.openFrame (s : State) (n : Fin 32) (tag : Byte) : State :=
  let t := s.src.states.get n
  let s1 := s.setTrack n
    { t with tag := some tag, frameOpen := true, accepted := 0, lastLine := 0, lastSegment := 0,
             startPhase := s.timer.lineCount, runningStarts := satInc 15 t.runningStarts }
  { s1 with store := s1.store.frameStart s1.scene.active n tag }

/-- R52: an accepted strip: the count, the position, the Intake Engine, and the frame's end at its last strip. -/
def State.acceptStrip (s : State) (n : Fin 32) (st : Strip) : State :=
  let r := s.src.records.get n
  let t := s.src.states.get n
  let s1 := s.setTrack n { t with accepted := t.accepted + 1, lastLine := st.line, lastSegment := st.segment }
  let s2 := { s1 with store := s1.store.intake r n st }
  if st.line + 1 = r.sh ∧ st.segment + 1 = r.segments then s2.endFrame n else s2

/-- R50: a frame start. -/
def State.startFrame (s : State) (n : Fin 32) (st : Strip) : State :=
  let s1 := if (s.src.states.get n).frameOpen then s.endFrame n else s
  (s1.openFrame n st.tag).acceptStrip n st

/-- R49, R51: a strip discarded as such. -/
def State.discardStrip (s : State) (n : Fin 32) : State :=
  let t := s.src.states.get n
  s.setTrack n { t with discarded := satInc16 t.discarded }

/-- R51: a strip discarded for its position. -/
def State.sequenceViolation (s : State) (n : Fin 32) : State :=
  let t := s.src.states.get n
  s.setTrack n { t with sequence := satInc16 t.sequence }

/-- R49 to R52: the arrival of a STRIP cell at the Source Tracker. -/
def State.stripArrival (s : State) (st : Strip) : State :=
  match checkStrip s.src.records st with
  | .noSource => s
  | .discarded n => s.discardStrip n
  | .valid n =>
    let t := s.src.states.get n
    if t.isStart st then s.startFrame n st
    else if t.frameOpen = true ∧ t.tag = some st.tag then
      (if t.isAfter st then s.acceptStrip n st else s.sequenceViolation n)
    else s.discardStrip n

/-! ### The frame mark (R57, R58) -/

/-- R57: the source has reached its stall limit. -/
def SourceTrack.stalls (t : SourceTrack) (r : SourceRec) : Bool :=
  (decide (t.state = .waiting) || decide (t.state = .live)) && decide (r.stallLimit ≤ t.sinceStart)

/-- R57: the source has reached its loss limit. -/
def SourceTrack.loses (t : SourceTrack) (r : SourceRec) : Bool :=
  (decide (t.state = .waiting) || decide (t.state = .live) || decide (t.state = .stalled)) &&
    decide (r.lossLimit ≤ t.sinceStart)

/-- R57: a source whose count is at or above its stall limit becomes STALLED. -/
def State.stallSource (s : State) (n : Fin 32) : State :=
  let t := s.src.states.get n
  if t.stalls (s.src.records.get n) then latch .sourceStalled (s.setTrack n { t with state := .stalled }) else s

/-- R57: a source whose count is at or above its loss limit becomes LOST. -/
def State.loseSource (s : State) (n : Fin 32) : State :=
  let t := s.src.states.get n
  if t.loses (s.src.records.get n) then latch .sourceLost (s.setTrack n { t with state := .lost }) else s

/-- R58: what starts in last frame becomes at a mark. DESIGN CHOICE (log 30): for an OFF source with starts in the panel frame
that the mark ends, R58 says both 0 and their count; which of the two it is is a free value. -/
def SourceTrack.startsAtMark (t : SourceTrack) : Nat :=
  if t.state = .off ∧ t.runningStarts ≠ 0 ∧ Config.offStartsCleared = true then 0 else t.runningStarts

/-- R57, R58: the counts of one source at a mark: the frames-since-start count, and the phase measures. -/
def SourceTrack.counted (t : SourceTrack) : SourceTrack :=
  { t with sinceStart := if t.state = .off then t.sinceStart else satInc16 t.sinceStart
           lastStarts := t.startsAtMark
           runningStarts := 0 }

/-- R57, R58: the Source Tracker's work at a frame mark for one source. -/
def State.markSource (s : State) (n : Fin 32) : State :=
  ((s.setTrack n (s.src.states.get n).counted).stallSource n).loseSource n

/-- R57, R58: the Source Tracker's work at a frame mark. DESIGN CHOICE (log 26): source 0 first, each source with its stall
check and then its loss check; the spec names no order of the sources. -/
def State.markSources (s : State) : State := (indices 32).foldl (fun acc n => acc.markSource n) s

/-! ### Tile reset (R61) -/

def SourceTrack.tileReset (r : SourceRec) : SourceTrack :=
  { SourceTrack.idle with state := if r.enabled then .waiting else .off }

def Tracker.tileReset (t : Tracker) : Tracker :=
  { t with states := t.records.map SourceTrack.tileReset }

end Sys2Proof.Machine
end

