-- ==== Sys2Proof/Machine/TimerOps.lean ====
section
/-! DEFINITION. The Frame Timer (07_wall_timing_and_frame_lock.md): SYNC arrival with phase error, lock states and trim;
and its work at the frame mark: missed frames, number and flag adoption, the setup latch, the output gate. -/

namespace Sys2Proof.Machine

/-! ### Phase and trim (R115, R116) -/

/-- R115: the phase error of an arrival at line `l`, with sync offset `o` and frame total `v`. -/
def phaseError (v o l : Nat) : Int :=
  let raw : Int := (l : Int) - o
  if (v : Int) < 2 * raw then raw - v else if 2 * raw ≤ -(v : Int) then raw + v else raw

/-- R116: e clamped to -8..+8. -/
def clampTrim (e : Int) : Int := max (-8) (min 8 e)

/-- R116: the trim set by the lock state an arrival leaves; in FREE and HOLDOVER it stays. -/
def trimFor (lock : LockState) (e old : Int) : Int :=
  match lock with
  | .acquire => clampTrim e
  | .locked => e.sign
  | .free | .holdover => old

/-- R116: the length of the frame in progress with a trim: V + trim, or, when the line count is already there, the frame
ends at the next line start. DESIGN CHOICE (log 31): the length kept, and read in COUNTERS (R121), is then L + 1, the lines the
frame has at its end; R116 calls V + trim the new length too. -/
def trimmedLength (v : Nat) (trim : Int) (lineCount : Nat) : Nat :=
  if ((v : Int) + trim).toNat ≤ lineCount then lineCount + 1 else ((v : Int) + trim).toNat

/-- R116: the trim of the frame in progress is set from the last phase error and the lock state. -/
def Timer.setTrim (t : Timer) : Timer :=
  let trim := trimFor t.lock t.lastPhase t.trim
  { t with trim := trim, frameLen := trimmedLength t.setup.v trim t.lineCount }

def State.setTrim (s : State) : State := { s with timer := s.timer.setTrim }

/-! ### Lock state changes (R117 to R119) -/

/-- R117: the lock state changes, and LOCK_CHANGE is latched. -/
def State.changeLock (s : State) (l : LockState) : State :=
  latch .lockChange { s with timer := { s.timer with lock := l } }

/-- R122, R164: the gate opens, if it is GATED, and GATE_OPEN is latched. -/
def State.openGate (s : State) : State :=
  if s.timer.gate = .gated then latch .gateOpen { s with timer := { s.timer with gate := .opened } } else s

/-- R118, R122: LOCKED is entered; the first entry after a reset opens the gate. -/
def State.enterLocked (s : State) : State := (s.changeLock .locked).openGate

/-- R118: the good count has reached 8 in ACQUIRE. -/
def State.lockAcquired (s : State) : State :=
  if s.timer.lock = .acquire ∧ 8 ≤ s.timer.good then
    State.enterLocked { s with timer := { s.timer with good := 0, bad := 0 } }
  else s

/-- R118: the bad count has reached 3 in LOCKED. -/
def State.lockBadLimit (s : State) : State :=
  if s.timer.lock = .locked ∧ 3 ≤ s.timer.bad then
    State.changeLock { s with timer := { s.timer with good := 0, bad := 0 } } .acquire
  else s

/-- R119: no SYNC cell since the previous mark, and the missed count has reached 3 in ACQUIRE. -/
def State.acquireMissedLimit (s : State) : State :=
  if s.timer.lock = .acquire ∧ s.timer.syncNoted = false ∧ 3 ≤ s.timer.missed then
    State.changeLock { s with timer := { s.timer with good := 0 } } .free
  else s

/-- R119: no SYNC cell since the previous mark, and the missed count has reached the holdover limit in HOLDOVER. -/
def State.holdoverLimit (s : State) : State :=
  if s.timer.lock = .holdover ∧ s.timer.syncNoted = false ∧ s.timer.setup.holdoverLimit ≤ s.timer.missed then
    s.changeLock .free
  else s

/-! ### SYNC arrival (R115 to R118) -/

/-- R118, in ACQUIRE. -/
def State.arriveAcquire (s : State) : State :=
  if s.timer.lastPhase.natAbs ≤ 2 then
    State.lockAcquired { s with timer := { s.timer with good := s.timer.good + 1 } }
  else { s with timer := { s.timer with good := 0 } }

/-- R118, in LOCKED. -/
def State.arriveLocked (s : State) : State :=
  if 8 < s.timer.lastPhase.natAbs then
    State.lockBadLimit { s with timer := { s.timer with bad := s.timer.bad + 1 } }
  else { s with timer := { s.timer with bad := 0 } }

/-- R118, in HOLDOVER. -/
def State.arriveHoldover (s : State) : State :=
  if s.timer.lastPhase.natAbs ≤ 2 then
    State.enterLocked { s with timer := { s.timer with bad := 0 } }
  else State.changeLock { s with timer := { s.timer with good := 0 } } .acquire

/-- R117, R118: the lock state and its counts at a SYNC arrival, the phase error being measured. -/
def State.arriveLock (s : State) : State :=
  match s.timer.lock with
  | .free => (s.changeLock .acquire).arriveAcquire
  | .acquire => s.arriveAcquire
  | .locked => s.arriveLocked
  | .holdover => s.arriveHoldover

/-- R115: what a SYNC cell leaves in the timer before the lock is judged. -/
def Timer.noteSync (t : Timer) (number flags : BitVec 32) : Timer :=
  { t with
    slip := if number = t.wallN + 1 then t.slip else satInc16 t.slip
    nextN := number
    pendFlags := flags
    syncNoted := true
    lastPhase := phaseError t.setup.v t.setup.o t.lineCount }

/-- R115: the arrival of a SYNC cell announcing a number with a flag word. -/
def State.syncArrival (s : State) (number flags : BitVec 32) : State :=
  let s1 := { s with timer := s.timer.noteSync number flags }
  let s2 := if number = s.timer.wallN + 1 then s1 else latch .slip s1
  s2.arriveLock.setTrim

/-! ### The frame mark (R114) -/

/-- R114, step 1, and R119: missed-frame accounting. -/
def State.markMissed (s : State) : State :=
  if s.timer.syncNoted then { s with timer := { s.timer with missed := 0 } }
  else
    let s1 := { s with timer := { s.timer with missed := satInc 1000 s.timer.missed } }
    match s1.timer.lock with
    | .free => s1
    | .acquire => State.acquireMissedLimit { s1 with timer := { s1.timer with good := 0 } }
    | .locked => State.changeLock { s1 with timer := { s1.timer with bad := 0 } } .holdover
    | .holdover => s1.holdoverLimit

/-- R114, step 2, and R120: the wall frame number and the flag words. -/
def Timer.adopt (t : Timer) : Timer :=
  { t with
    wallN := if t.syncNoted then t.nextN else t.wallN + 1
    prevFlags := t.curFlags
    curFlags := if t.syncNoted then t.pendFlags else t.curFlags
    syncNoted := false }

/-- R124: V or O differs. -/
def timingDiffers (a b : Setup) : Bool := decide (a.v ≠ b.v) || decide (a.o ≠ b.o)

/-- R124: what a change of V or O does to the lock. -/
def State.retime (s : State) : State :=
  match s.timer.lock with
  | .locked => State.changeLock { s with timer := { s.timer with good := 0, bad := 0 } } .acquire
  | .acquire => { s with timer := { s.timer with good := 0 } }
  | .free | .holdover => s

/-- R114, step 3, and R124: the setup latch. DESIGN CHOICE (log 15): LOCK_CHANGE, where a change of V or O makes one, is
latched before SETUP_TAKEN. DEDUCED (log 15): both are judged by the event mask of the copy just taken into force. -/
def State.latchSetup (s : State) : State :=
  match s.timer.pendSetup with
  | none => s
  | some copy =>
    let s1 := { s with timer := { s.timer with setup := copy, pendSetup := none } }
    let s2 := if timingDiffers s.timer.setup copy then s1.retime else s1
    latch .setupTaken s2

/-- R122: the start count has reached the start timeout. -/
def State.startTimeout (s : State) : State :=
  if 1 ≤ s.timer.setup.startTimeout ∧ s.timer.setup.startTimeout ≤ s.timer.startCount then s.openGate else s

/-- R114, step 4, and R122: start count and gate. -/
def State.markStart (s : State) : State :=
  State.startTimeout { s with timer := { s.timer with startCount := satInc 1000 s.timer.startCount } }

/-- R113, R114, step 5: a new frame begins at line 0 with trim 0. -/
def Timer.beginFrame (t : Timer) : Timer :=
  { t with lineCount := 0, lineZeroDue := true, trim := 0, frameLen := t.setup.v }

/-- R114: the Frame Timer's work at the frame mark. -/
def State.markTimer (s : State) : State :=
  let s1 := s.markMissed
  let s2 := ({ s1 with timer := s1.timer.adopt } : State).latchSetup.markStart
  { s2 with timer := s2.timer.beginFrame }

/-! ### Tile reset (R126) -/

/-- R126, R114; the new frame begins at the end of the sequence. -/
def Timer.tileReset (t : Timer) : Timer :=
  { t with
    lock := .free
    good := 0
    bad := 0
    missed := 0
    lastPhase := 0
    wallN := 0
    nextN := 0
    syncNoted := false
    curFlags := 0
    prevFlags := 0
    pendFlags := 0
    slip := 0
    gate := .gated
    startCount := 0
    pendSetup := none }

end Sys2Proof.Machine
end

