-- ==== Sys2Proof/Machine/CueOps.lean ====
section
/-! DEFINITION. The Cue and Trigger Unit (08_cues_tours_and_alarm_triggers.md): the cue queue, expiry, and the trigger
units with their requests to the Scene Controller. Switches in place that actions make are collected for the hand-over of
R23. -/

namespace Sys2Proof.Machine

/-! ### The cue queue (R127 to R134) -/

/-- R127: the distance of a target from N. -/
def distance (n target : BitVec 32) : Nat := (target - n).toNat

/-- R127: a target is at or before N. -/
def atOrBefore (n target : BitVec 32) : Bool := decide ((n - target).toNat ≤ 2 ^ 31)

/-- R128: a cue enters the queue after every cue whose distance is at or below its own, and before the first whose
distance is larger. -/
def insertCue (n : BitVec 32) (c : Cue) (q : List Cue) : List Cue :=
  q.takeWhile (fun d => decide (distance n d.target ≤ distance n c.target)) ++
    c :: q.dropWhile (fun d => decide (distance n d.target ≤ distance n c.target))

/-- R132: a cue put back at a mark enters the queue after every cue whose distance is at or below its own; the cues still
to be taken out at this mark are passed over. -/
def putBack (n : BitVec 32) (c : Cue) (q : List Cue) : List Cue :=
  q.takeWhile (fun d => atOrBefore n d.target || decide (distance n d.target ≤ distance n c.target)) ++
    c :: q.dropWhile (fun d => atOrBefore n d.target || decide (distance n d.target ≤ distance n c.target))

/-- R130: the admission limit: the capacity in force, or the smaller of it and the pending copy's. -/
def Timer.admissionLimit (t : Timer) : Nat :=
  match t.pendSetup with
  | none => t.setup.cueCapacity
  | some copy => min t.setup.cueCapacity copy.cueCapacity

/-- R128, steps 3 to 5: the result of offering a cue to the queue. -/
def State.offerResult (s : State) (c : Cue) : Result :=
  let d := distance s.timer.wallN c.target
  if d = 0 ∨ 2 ^ 31 ≤ d then .late
  else if s.timer.setup.lookAhead < d then .far
  else if s.timer.admissionLimit ≤ s.cues.queue.length then .full
  else .ok

/-- R128: a cue is put into the queue. -/
def State.addCue (s : State) (c : Cue) : State :=
  { s with cues := { s.cues with queue := insertCue s.timer.wallN c s.cues.queue } }

/-- R132: the target a REPEAT cue is put back with. -/
def nextTarget (n target : BitVec 32) (period : Nat) : BitVec 32 :=
  target + BitVec.ofNat 32 (period * ((n - target).toNat / period + 1))

/-- R129: the cue of a COMMIT command with a target frame. Its window and its source or preset, which COMMIT does not use
and no one has written, are free values (log 27). -/
def commitCue (target : BitVec 32) : Cue :=
  ⟨0, .commit, Config.commitCueWindow, Config.commitCueParam, .once, 0, target⟩

/-! ### Actions (R131, R137) -/

/-- A scene with the windows switched in place by SOURCE actions so far at this mark (R15, R23). -/
structure SceneWork where
  scene : Scene
  switched : List (Fin 32)
  deriving DecidableEq, Repr

/-- R15: a SOURCE action, with its report. -/
def SceneWork.source (k : SceneWork) (w src : Fin 32) : SceneWork :=
  { scene := k.scene.setSource w src
    switched := if k.scene.sourceSwitches w src then k.switched ++ [w] else k.switched }

/-- R131: an action of a cue, or of a trigger unit with an edge (R137): a latch for BLANK and HIGHLIGHT, the action once
for the others. -/
def SceneWork.act (k : SceneWork) (a : Action) (window param : Byte) : SceneWork :=
  let w := indexOf 32 window.toNat
  match a with
  | .commit => { k with scene := { k.scene with commitPending := true } }
  | .recall => { k with scene := k.scene.recall (indexOf 4 param.toNat) }
  | .source => k.source w (indexOf 32 param.toNat)
  | .raise => { k with scene := k.scene.raise w }
  | .blank => { k with scene := k.scene.requestBlank w .latch }
  | .highlight => { k with scene := k.scene.requestHighlight w .latch }

/-- R137: a LEVEL unit's request at a mark where its flag is `c`. -/
def SceneWork.actLevel (k : SceneWork) (c : Bool) (a : Action) (window param : Byte) : SceneWork :=
  let w := indexOf 32 window.toNat
  match a with
  | .blank => { k with scene := k.scene.requestBlank w (if c then .levelOn else .levelOff) }
  | .highlight => { k with scene := k.scene.requestHighlight w (if c then .levelOn else .levelOff) }
  | .raise | .source => if c then k.act a window param else k
  | .recall | .commit => k

/-! ### Expiry (R131, R132) -/

/-- What expiry works on: the scene and the queue. -/
structure CueWork where
  work : SceneWork
  queue : List Cue
  deriving DecidableEq, Repr

/-- R131, R132: the first due cue of the queue is taken out, its action is applied, and a REPEAT cue is put back. Where no
cue is due nothing changes. -/
def CueWork.expireOne (k : CueWork) (n : BitVec 32) : CueWork :=
  match k.queue.find? fun c => atOrBefore n c.target with
  | none => k
  | some c =>
    let rest := k.queue.eraseP fun d => atOrBefore n d.target
    { work := k.work.act c.action c.window c.param
      queue := match c.mode with
        | .once => rest
        | .repeating => putBack n { c with target := nextTarget n c.target c.period } rest }

/-- R131: every due cue, in queue order; `fuel` is at least their number. -/
def CueWork.expire (n : BitVec 32) : Nat → CueWork → CueWork
  | 0, k => k
  | fuel + 1, k => CueWork.expire n fuel (k.expireOne n)

/-- R131: a due cue whose target is before N. -/
def isLate (n : BitVec 32) (c : Cue) : Bool := atOrBefore n c.target && decide (c.target ≠ n)

/-! ### Trigger units (R136 to R139) -/

/-- R137, R139: what one trigger unit does at a mark: with a pending strobe the right-hand column of Table 8-3; otherwise
its own request, if it is evaluated. -/
def SceneWork.unitActs (k : SceneWork) (t : Trigger) (strobe : Bool) (prev cur : BitVec 32) : SceneWork :=
  if strobe then k.act t.action t.window t.param
  else match t.reads prev, t.reads cur with
    | some p, some c =>
      if t.edge = .level then k.actLevel c t.action t.window t.param
      else if t.edge.sees p c then k.act t.action t.window t.param
      else k
    | _, _ => k

/-- R138: the trigger units of a mark, unit 0 first. -/
def SceneWork.unitsAct (k : SceneWork) (u : CueUnit) (prev cur : BitVec 32) : SceneWork :=
  (indices 8).foldl (fun acc i => acc.unitActs (u.triggers.get i) (u.strobes.get i) prev cur) k

/-! ### Tile reset (R141) -/

def CueUnit.tileReset (u : CueUnit) : CueUnit := { u with queue := [], strobes := Table.fill 8 false }

end Sys2Proof.Machine
end

