-- ==== Sys2Proof/Machine/CompositorOps.lean ====
section
/-! DEFINITION. The Compositor (06_composition_and_captions.md): frame output, the stacking walk, captions, borders,
content, the background, and the building of a line. -/

namespace Sys2Proof.Machine

/-! ### Frame output (R96, R98) -/

/-- R96: the Compositor takes the output gate and the backlight level in force. -/
def Compositor.takeGate (c : Compositor) (gate : Gate) (level : Nat) : Compositor :=
  match gate with
  | .opened => { c with output := .show, backlight := level }
  | .gated => { c with output := .black, backlight := 0 }

/-- R98. -/
def Compositor.tileReset (c : Compositor) : Compositor := { c with output := .black, backlight := 0 }

/-! ### The stacking walk (R99) -/

/-- The wall pixel lies in the window's rectangle. -/
def WinRec.contains (r : WinRec) (x y : Nat) : Bool :=
  decide (r.x ≤ x) && decide (x < r.x + r.w) && decide (r.y ≤ y) && decide (y < r.y + r.h)

/-- R99: the window that supplies a wall pixel. -/
def Scene.supplier (s : Scene) (x y : Nat) : Option (Fin 32) :=
  s.activeList.find? fun n => decide ((s.active.get n).mode ≠ .hidden) && (s.active.get n).contains x y

/-! ### Captions (R101 to R103) -/

/-- R101: the caption area, in the window's rectangle, contains the wall pixel. -/
def WinRec.captionAt (r : WinRec) (x y : Nat) : Bool :=
  decide (1 ≤ r.capLen) && r.contains x y && decide (x < r.x + 12 * r.capSize * r.capLen) &&
    match r.capPlace with
    | .top => decide (y < r.y + 16 * r.capSize)
    | .bottom => decide (r.y + r.h ≤ y + 16 * r.capSize)

/-- R102: the glyph row of a caption pixel; the caption's top row is y for TOP and y + h - 16 s for BOTTOM. -/
def WinRec.captionRow (r : WinRec) (y : Nat) : Nat :=
  match r.capPlace with
  | .top => (y - r.y) / r.capSize
  | .bottom => (y + 16 * r.capSize - (r.y + r.h)) / r.capSize

/-- R111: the bit at a row and column of a glyph. -/
def glyphBit (g : Glyph) (row col : Nat) : Bool := (g.get (indexOf 16 row)).getLsbD (11 - col)

/-- R102: the colour of a caption pixel. -/
def WinRec.captionColour (r : WinRec) (glyphs : Table Glyph 128) (x y : Nat) : Colour :=
  let g := (x - r.x) / (12 * r.capSize)
  let code := r.capText.get (indexOf 32 g)
  let col := (x - r.x) % (12 * r.capSize) / r.capSize
  if glyphBit (glyphs.get code) (r.captionRow y) col then r.capFg else r.capBg

/-! ### Borders (R104 to R106) -/

/-- R104: a wall pixel of the window lies within the border width of the rectangle's edge. -/
def WinRec.borderAt (r : WinRec) (x y : Nat) : Bool :=
  let i := x - r.x
  let j := y - r.y
  decide (1 ≤ r.borderWidth) &&
    (decide (i < r.borderWidth) || decide (r.w - r.borderWidth ≤ i) ||
      decide (j < r.borderWidth) || decide (r.h - r.borderWidth ≤ j))

/-- R106: the alarm flash is in its on-phase. -/
def flashOn (n : BitVec 32) (flash : Nat) : Bool := decide (n.toNat / 2 ^ flash % 2 = 0)

/-- The state of a window's source; none for a window whose source is NONE. -/
def Tracker.stateOf (t : Tracker) (source : Option (Fin 32)) : Option SourceState :=
  source.map fun s => (t.states.get s).state

/-- R105, Table 6-1. -/
def borderColour (r : WinRec) (w : WinState) (source : Option SourceState) (flash : Bool) : Colour :=
  if w.highlight ≠ .off ∧ flash = true then r.alarm
  else if source = some .stalled ∨ source = some .lost then r.stale
  else r.border

/-! ### Content (R107 to R109) -/

/-- R109, Table 6-3. -/
def barColour (bar : Nat) : Colour :=
  match bar with
  | 0 => ⟨767, 767, 767⟩
  | 1 => ⟨767, 767, 0⟩
  | 2 => ⟨0, 767, 767⟩
  | 3 => ⟨0, 767, 0⟩
  | 4 => ⟨767, 0, 767⟩
  | 5 => ⟨767, 0, 0⟩
  | 6 => ⟨0, 0, 767⟩
  | _ => ⟨0, 0, 0⟩

/-- R108: the picture of a LIVE or FREEZE window at a wall pixel. -/
def State.pictureColour (s : State) (n : Fin 32) (x y : Nat) : Colour :=
  let r := s.scene.active.get n
  match (s.store.wins.get n).showing?, r.feed (s.scene.wins.get n).tourSource, visibleRect s.timer.setup.geo r with
  | some b, some src, some v =>
    let rec' := s.src.records.get src
    if b.mark = false then r.fill
    else if beyondExtent rec' (mapPixel r (effectiveCrop r rec') (x - r.x) (y - r.y)) then r.fill
    else if (s.src.states.get src).state = .lost ∧ r.loss = .fill then r.fill
    else (s.store.mem.readStore b.pages ((y - v.y0) * v.w + (x - v.x0))).getD r.fill
  | _, _, _ => r.fill

/-- R107, Table 6-2. -/
def State.contentColour (s : State) (n : Fin 32) (x y : Nat) : Colour :=
  let r := s.scene.active.get n
  if (s.scene.wins.get n).blank ≠ .off then r.fill
  else match r.mode with
    | .solid => r.fill
    | .pattern => barColour (8 * (x - r.x) / r.w)
    | .live | .freeze | .hidden => s.pictureColour n x y

/-! ### The line (R97, R110) -/

/-- R101, R104, R107: a pixel of the supplying window: caption before border before content. -/
def State.windowColour (s : State) (n : Fin 32) (x y : Nat) : Colour :=
  let r := s.scene.active.get n
  if r.captionAt x y then r.captionColour s.comp.glyphs x y
  else if r.borderAt x y then
    borderColour r (s.scene.wins.get n) (s.src.stateOf (r.feed (s.scene.wins.get n).tourSource))
      (flashOn s.timer.wallN s.timer.setup.flash)
  else s.contentColour n x y

/-- R97, R99, R110: the colour of a wall pixel while the frame output state is SHOW. -/
def State.wallColour (s : State) (x y : Nat) : Colour :=
  match s.scene.supplier x y with
  | some n => s.windowColour n x y
  | none => s.timer.setup.background

/-- R97: the pixels of active line v. -/
def State.linePixels (s : State) (v : Nat) : List Colour :=
  let g := s.timer.setup.geo
  (List.range g.pw).map fun u =>
    match s.comp.output with
    | .black => Colour.black
    | .show => s.wallColour (g.ox + u) (g.oy + v)

/-- R97: line v is built and sent, when it is active; at a blanking line nothing is sent. -/
def State.buildLine (s : State) (v : Nat) : State :=
  if v < s.timer.setup.geo.ph then
    { s with comp := { s.comp with panelLine := v, panelPixels := s.linePixels v } }
  else s

/-- R113: the number of the line whose start comes next: line 0 while its start is still due, else the next line. -/
def Timer.nextLine (t : Timer) : Nat := if t.lineZeroDue then 0 else t.lineCount + 1

/-- R113: the next line start belongs to the frame in progress; otherwise it is the frame mark. -/
def Timer.lineFollows (t : Timer) : Bool := t.lineZeroDue || decide (t.lineCount + 1 < t.frameLen)

/-- R97, R113: a line start of the frame in progress; at the frame's end nothing happens here, since the line start is
then the frame mark. -/
def State.lineStart (s : State) : State :=
  if s.timer.lineFollows then
    State.buildLine { s with timer := { s.timer with lineCount := s.timer.nextLine, lineZeroDue := false } }
      s.timer.nextLine
  else s

end Sys2Proof.Machine
end

