-- ==== Sys2Proof/Machine/MarkOps.lean ====
section
/-! DEFINITION. The work of all blocks at a frame mark in its order (R114, R22, R83, R57, R96, R165), and its parts that are
commands of their own. -/

namespace Sys2Proof.Machine

/-! ### The Command Unit at a mark (R165) -/

/-- R165: the interval count has reached the status interval in force. -/
def State.statusInterval (s : State) : State :=
  if s.timer.setup.statusInterval ≤ s.cmd.intervalCount then
    let s1 := offerStatus s
    { s1 with cmd := { s1.cmd with intervalCount := 0 } }
  else s

/-- R165: the interval count rises at the mark. -/
def State.markInterval (s : State) : State :=
  State.statusInterval { s with cmd := { s.cmd with intervalCount := s.cmd.intervalCount + 1 } }

/-! ### The Compositor at a mark (R96) -/

def State.markCompositor (s : State) : State :=
  { s with comp := s.comp.takeGate s.timer.gate s.timer.setup.backlight }

/-! ### The Scene Controller at a mark (R22) -/

/-- R22, step 1, and R131: the due cues act, in queue order; CUE_LATE is latched once when one of them is late. The second
part of the answer is the windows switched in place. -/
def State.markCues (s : State) : State × List (Fin 32) :=
  let n := s.timer.wallN
  let k := CueWork.expire n s.cues.queue.length ⟨⟨s.scene, []⟩, s.cues.queue⟩
  let s1 := { s with scene := k.work.scene, cues := { s.cues with queue := k.queue } }
  (if s.cues.queue.any (isLate n) then latch .cueLate s1 else s1, k.work.switched)

/-- R22, step 2, R13, R138, R139: the pending clears, then the trigger units, whose strobes are then cleared. -/
def State.markTriggers (s : State) (switched : List (Fin 32)) : State × List (Fin 32) :=
  let k := SceneWork.unitsAct ⟨s.scene.takeClears, switched⟩ s.cues s.timer.prevFlags s.timer.curFlags
  ({ s with scene := k.scene, cues := { s.cues with strobes := Table.fill 8 false } }, k.switched)

/-- R22, step 3, R10: a commit is taken when the commit-pending flag is set; the second part of the answer is its change
set (R11). -/
def State.markCommit (s : State) : State × Table WinChange 32 :=
  if s.scene.commitPending then
    (latch .commitTaken { s with scene := s.scene.commit s.timer.wallN }, s.scene.changeSet)
  else (s, Table.fill 32 WinChange.none)

/-- R23: what is handed to the Store Manager. -/
def State.handOver (s : State) (changes : Table WinChange 32) (switched : List (Fin 32)) (geoChanged : Bool) : HandOver where
  active := s.scene.active
  activeList := s.scene.activeList
  tours := s.scene.wins.map (·.tourSource)
  geo := s.timer.setup.geo
  changes := changes
  switched := switched
  geoChanged := geoChanged

/-- R22: the Scene Controller's work at a mark, and what it hands over. -/
def State.markScene (s : State) (geoChanged : Bool) : State × HandOver :=
  let cued := s.markCues
  let triggered := cued.1.markTriggers cued.2
  let committed := triggered.1.markCommit
  let n := committed.1.timer.wallN
  let switched := triggered.2 ++ committed.1.scene.tourSwitches committed.2 n
  let toured := { committed.1 with scene := committed.1.scene.tourSteps n }
  (toured, toured.handOver committed.2 switched geoChanged)

/-! ### The Store Manager at a mark (R83, R92) -/

/-- R83, R92: the Store Manager's work; NOMEM is latched once when an allocation leaves a window degraded. -/
def State.markStore (s : State) (h : HandOver) : State :=
  let s1 := { s with store := s.store.atMark h s.src.states }
  if h.allocates && decide (1 ≤ s1.store.degraded) then latch .nomem s1 else s1

/-! ### The frame mark (R114) -/

/-- R114 and the chapters of the blocks that act at the mark, in the order `o` where the spec leaves an order open. DESIGN
CHOICE (log 5): the interval STATUS cell of R165 is built before every block's work or after all of it. -/
def State.frameMark (s : State) (o : MarkOrder) : State :=
  let s0 := if o.compositorFirst then s.markCompositor else s
  let s1 := if o.commandFirst then s0.markInterval else s0
  let s2 := s1.markTimer
  let s3 := if o.trackerFirst then s2.markSources else s2
  let scened := s3.markScene (decide (s2.timer.setup.geo ≠ s1.timer.setup.geo))
  let s5 := scened.1.markStore scened.2
  let s6 := if o.trackerFirst then s5 else s5.markSources
  let s7 := if o.compositorFirst then s6 else s6.markCompositor
  if o.commandFirst then s7 else s7.markInterval

/-- R113: the next line start is the frame mark: the tile is not in reset, and the frame in progress is at its end. -/
def State.marksNext (s : State) : Bool := decide (s.ring.phase = .running) && !s.timer.lineFollows

/-- R97, R113: a line start that is no frame mark. The panel is driven during a tile reset too, and not in power-on reset
(log 18). -/
def State.panelLine (s : State) : State := if s.ring.phase = .powerOnReset then s else s.lineStart

/-- R113, R97: the line start after the frame's last line is the frame mark and the start of line 0. Where the spec leaves the
order of two blocks at the mark open, the order is a free value (log 5). -/
def State.lineMark (s : State) : State :=
  (State.frameMark { s with freeIdx := s.freeIdx + 1 } (Config.lineMarkOrder s.freeIdx)).lineStart

/-! ### Parts of a mark as commands of their own -/

/-- R86, R62: the windows switched in place outside a mark's own hand-over are re-armed and the scene is published
(log 21). -/
def State.handSwitches (s : State) (switched : List (Fin 32)) : State :=
  let h := s.handOver (Table.fill 32 WinChange.none) switched false
  { s with store := (s.store.markSwitches h).publish h }

/-- R131, R132: the first due cue of the queue is taken out and acts; where no cue is due nothing changes. -/
def State.expireCue (s : State) : State :=
  let n := s.timer.wallN
  match s.cues.queue.find? fun c => atOrBefore n c.target with
  | none => s
  | some c =>
    let k := CueWork.expireOne ⟨⟨s.scene, []⟩, s.cues.queue⟩ n
    let s1 := { s with scene := k.work.scene, cues := { s.cues with queue := k.queue } }
    (if isLate n c then latch .cueLate s1 else s1).handSwitches k.work.switched

/-- R20, R21: window k takes its tour step and, when its source changes, switches in place; a window that does not tour is
unchanged. -/
def State.stepTour (s : State) (k : Fin 32) : State :=
  let n := s.timer.wallN
  if (s.scene.active.get k).tours then
    State.handSwitches { s with scene := s.scene.tourStep k n } (if s.scene.tourMoves k n then [k] else [])
  else s

end Sys2Proof.Machine
end

