-- ==== Sys2Proof/Machine/CommandOps.lean ====
section
/-! DEFINITION. The Command Unit (10_management_commands_and_status.md): the judgement of a command, the table commands, the
scene, cue and tile commands, and the replies. -/

namespace Sys2Proof.Machine

/-! ### Replies (R148, R154) -/

/-- R154: what a command's rule puts into its reply. -/
structure Answer where
  result : Result
  count : Nat
  arg1 : Nat
  arg2 : Nat
  records : List Byte
  deriving DecidableEq, Repr

/-- R154: unless a command's rule says otherwise, the count and both argument words are 0. -/
def Answer.plain (r : Result) : Answer := ⟨r, 0, 0, 0, []⟩

/-- OK with a count. -/
def Answer.counted (r : Result) (n : Nat) : Answer := ⟨r, n, 0, 0, []⟩

/-- R161: LATE and FAR carry the current N in the argument words, high word first. -/
def Answer.withN (r : Result) (n : BitVec 32) : Answer := ⟨r, 0, n.toNat / 65536, n.toNat % 65536, []⟩

/-- R154, Table 11-1: the REPLY cell before its check word. -/
def replyBody (address : Nat) (originator sequence command : Byte) (a : Answer) : List Byte :=
  [4, byte address, originator, sequence, command, byte a.result.code, byte a.count, 0]
  ++ natBytes 2 a.arg1 ++ natBytes 2 a.arg2 ++ [0, 0] ++ padTo 240 a.records

/-- R148: a REPLY cell is put at the back of the queue, or discarded at a full queue. -/
def offerReply (body : List Byte) (s : State) : State :=
  if s.ring.replies.length < Config.replyCapacity then
    { s with ring := { s.ring with replies := s.ring.replies ++ [body] } }
  else
    latch .repliesDropped { s with ring := { s.ring with repliesDropped := satInc16 s.ring.repliesDropped } }

/-! ### Classes (R156) -/

/-- R156: the class of an originator; for a number above 15 a free value (log 10). -/
def State.classOf (s : State) (originator : Byte) : OrigClass :=
  match index? 16 originator.toNat with
  | some i => s.cmd.origins.get i
  | none => Config.unlistedClass originator.toNat

/-- R156: the window's shadow record is pinned. -/
def State.shadowPinned (s : State) (n : Fin 32) : Bool := (s.scene.shadow.get n).pinned

/-- R3: the class check of a delivered window record. -/
def State.recordDenied (s : State) (cls : OrigClass) (n : Fin 32) (bytes : List Byte) : Bool :=
  decide (cls = .operator) && (s.shadowPinned n || (deliveredPinned bytes != s.shadowPinned n))

/-! ### READ (R157) -/

/-- The frame tag byte of a record at a place where no tag is held (log 9). -/
def State.tagFree (s : State) (place : Nat) : Byte := Config.freeByte s.freeIdx place

/-- A window or source number, 255 for NONE (R167). -/
def numberByte (n : Option (Fin 32)) : Byte := n.elim 255 fun k => byte k.val

/-- Table 11-5: STACK and ACTIVE_STACK, without the last three bytes. -/
def listRecord (l : List (Fin 32)) : List Byte :=
  byte l.length :: (l.map (fun n => byte n.val) ++ List.replicate (32 - l.length) 255)

/-- R6, Table 11-5: the STACK record. DESIGN CHOICE (log 32): bits 7..4 of byte 35, which the table does not name, are 0. -/
def State.stackRecord (s : State) : List Byte :=
  listRecord s.scene.shadowList ++
    [boolByte s.scene.commitPending, boolByte s.scene.recallNote,
      byte ((List.range 4).foldl (fun acc p =>
        acc + (if (s.scene.presets.get (indexOf 4 p)).valid then 2 ^ p else 0)) 0)]

/-- R59, Table 11-5: the SOURCE_STATE record. -/
def State.sourceStateRecord (s : State) (n : Fin 32) : List Byte :=
  let t := s.src.states.get n
  [byte t.state.code, boolByte t.frameOpen, boolByte t.tag.isSome, t.tag.getD (s.tagFree n.val)]
  ++ natBytes 4 t.accepted ++ natBytes 2 t.lastLine ++ [byte t.lastSegment, byte t.lastStarts]
  ++ natBytes 2 t.sinceStart ++ natBytes 2 t.startPhase ++ natBytes 2 t.completed ++ natBytes 2 t.rejected
  ++ natBytes 2 t.discarded ++ natBytes 2 t.sequence

/-- R93, Table 11-5: one buffer entry of the WINDOW_STATE record. -/
def State.bufferEntry (s : State) (place : Nat) (b : Buffer) : List Byte :=
  [byte b.role.code, byte b.role.armCode,
    (match b.role with
      | .filling (.writing tag) => tag
      | _ => s.tagFree place),
    boolByte b.mark]

/-- R12, R32, R93, Table 11-5: the WINDOW_STATE record. DESIGN CHOICE (log 32): bits 7..2 of byte 34, which the table does not
name, are 0. -/
def State.windowStateRecord (s : State) (n : Fin 32) : List Byte :=
  let w := s.store.wins.get n
  let a := s.scene.wins.get n
  let v := (visibleRect s.timer.setup.geo (s.scene.active.get n)).getD ⟨0, 0, 0, 0⟩
  natBytes 2 v.x0 ++ natBytes 2 v.y0 ++ natBytes 2 v.w ++ natBytes 2 v.h
  ++ natBytes 2 (pagesPerBuffer v) ++ natBytes 2 (w.bufs.length * pagesPerBuffer v)
  ++ [byte w.bufs.length, numberByte w.feeding]
  ++ padTo 12 (w.listed.zipIdx.flatMap fun p => s.bufferEntry (3 * n.val + p.2) p.1)
  ++ natBytes 2 w.shown ++ natBytes 2 w.dropped ++ natBytes 2 w.repeated
  ++ [byte a.blank.code, byte a.highlight.code,
      byte (2 * a.blankClear.toNat + a.highlightClear.toNat), numberByte a.tourSource]
  ++ natBytes 4 a.epoch.toNat

/-- R121, R152, Table 11-5: the COUNTERS record. -/
def State.countersRecord (s : State) : List Byte :=
  let r := s.ring
  let t := s.timer
  [byte r.link.code, byte r.runCount] ++ natBytes 2 r.cellsReceived ++ natBytes 2 r.checkErrors
  ++ natBytes 2 r.alignLosses ++ natBytes 2 r.controlTaken ++ natBytes 2 r.repliesDropped
  ++ [byte t.lock.code, boolByte t.pendSetup.isSome] ++ natBytes 2 (signedNat 16 t.lastPhase)
  ++ [byte (signedNat 8 t.trim), byte t.good, byte t.bad, 0]
  ++ natBytes 2 t.frameLen ++ natBytes 2 t.missed ++ natBytes 2 t.startCount ++ natBytes 2 t.slip

/-- R155, R157: record i of a table, as it stands. -/
def State.record (s : State) (t : TableId) (i : Nat) : List Byte :=
  let n := indexOf 32 i
  match t with
  | .setup => (s.timer.pendSetup.getD s.timer.setup).pack s.cmd.address
  | .origins => [byte (classCode (s.cmd.origins.get (indexOf 16 i)))]
  | .sources => (s.src.records.get n).pack
  | .windows => (s.scene.shadow.get n).pack
  | .active => (s.scene.active.get n).pack
  | .stack => s.stackRecord
  | .activeStack => listRecord s.scene.activeList ++ [0, 0, 0]
  | .glyphs => glyphPack (s.comp.glyphs.get (indexOf 128 i))
  | .triggers => (s.cues.triggers.get (indexOf 8 i)).pack (s.cues.strobes.get (indexOf 8 i))
  | .sourceState => s.sourceStateRecord n
  | .windowState => s.windowStateRecord n
  | .cues => (s.cues.queue[i]?).elim [] Cue.pack
  | .counters => s.countersRecord

/-- R157: the numbers of the records a READ returns. -/
def State.readIndices (s : State) (t : TableId) (index count : Nat) : List Nat :=
  let k := min count t.perPayload
  match t with
  | .cues => (span index (min (index + k) s.cues.queue.length))
  | _ => (List.range k).map fun j => (index + j) % t.records

/-- R157: READ. Every READ draws new free bytes (log 9). -/
def State.read (s : State) (t : TableId) (index count : Nat) : State × Answer :=
  if t.records ≤ index then (s, Answer.plain .range)
  else
    let is := s.readIndices t index count
    ({ s with freeIdx := s.freeIdx + 1 }, ⟨.ok, is.length, 0, 0, is.flatMap (s.record t)⟩)

/-! ### WRITE and WRITE_IF (R158, R159) -/

/-- What the check and write of one record comes to. -/
inductive Written where
  | written (s : State)
  | failed (r : Result)

/-- R2, R3: a record for the WINDOWS table. -/
def State.writeWindow (s : State) (cls : OrigClass) (n : Fin 32) (bytes : List Byte) : Written :=
  if s.recordDenied cls n bytes then .failed .denied
  else match WinRec.unpack bytes with
    | none => .failed .range
    | some r => if r.ok then .written { s with scene := s.scene.writeShadow n r } else .failed .range

/-- R46, R48: a record for the SOURCES table. -/
def State.writeSourceRecord (s : State) (n : Fin 32) (bytes : List Byte) : Written :=
  match SourceRec.unpack bytes with
  | none => .failed .range
  | some r => if r.ok then .written (s.writeSource n r) else .failed .range

/-- R123: a record for SETUP becomes the pending setup copy. -/
def State.writeSetup (s : State) (bytes : List Byte) : Written :=
  let r := Setup.unpack bytes
  if r.ok s.cues.queue.length then .written { s with timer := { s.timer with pendSetup := some r } }
  else .failed .range

/-- R156: a record for ORIGINS. -/
def State.writeOrigin (s : State) (i : Fin 16) (bytes : List Byte) : Written :=
  match classOfCode (byteAt bytes 0).toNat with
  | none => .failed .range
  | some c =>
    if i = 0 ∧ c = .operator then .failed .range
    else .written { s with cmd := { s.cmd with origins := s.cmd.origins.set i c } }

/-- R135: a record for TRIGGERS; the pending strobe is not written (R167). -/
def State.writeTrigger (s : State) (i : Fin 8) (bytes : List Byte) : Written :=
  match Trigger.unpack bytes with
  | none => .failed .range
  | some r =>
    if r.ok then .written { s with cues := { s.cues with triggers := s.cues.triggers.set i r } } else .failed .range

/-- R111: a record for GLYPHS. -/
def State.writeGlyph (s : State) (i : Fin 128) (bytes : List Byte) : Written :=
  .written { s with comp := { s.comp with glyphs := s.comp.glyphs.set i (glyphUnpack bytes) } }

/-- R158: the check and write of record i of a table that WRITE writes. -/
def State.writeRecord (s : State) (cls : OrigClass) (t : TableId) (i : Nat) (bytes : List Byte) : Written :=
  match t with
  | .setup => s.writeSetup bytes
  | .origins => s.writeOrigin (indexOf 16 i) bytes
  | .sources => s.writeSourceRecord (indexOf 32 i) bytes
  | .windows => s.writeWindow cls (indexOf 32 i) bytes
  | .glyphs => s.writeGlyph (indexOf 128 i) bytes
  | .triggers => s.writeTrigger (indexOf 8 i) bytes
  | .active | .stack | .activeStack | .sourceState | .windowState | .cues | .counters => .failed .readonly

/-- R158: `left` records from index i, in order and wrapping; `done` have been written. The first that fails stops the
command. -/
def State.writeRecords (cls : OrigClass) (t : TableId) : Nat → Nat → List Byte → Nat → State → State × Answer
  | 0, _, _, done, s => (s, Answer.counted .ok done)
  | left + 1, i, bytes, done, s =>
    match s.writeRecord cls t i (bytes.take t.recordSize) with
    | .written s' =>
      State.writeRecords cls t left ((i + 1) % t.records) (bytes.drop t.recordSize) (done + 1) s'
    | .failed r => (s, Answer.counted r done)

/-- R158: a counter is zeroed when the word names it. -/
def zeroed (mask : Nat) (bit : Nat) (n : Nat) : Nat := if mask.testBit bit then 0 else n

/-- R158: the counters that the first argument word names: all six when it names none. -/
def counterMask (arg : Nat) : Nat := if arg % 64 = 0 then 63 else arg % 64

/-- R158: a WRITE of COUNTERS. -/
def State.zeroCounters (s : State) (arg : Nat) : State × Answer :=
  let m := counterMask arg
  ({ s with
      ring := { s.ring with
        cellsReceived := zeroed m 0 s.ring.cellsReceived
        checkErrors := zeroed m 1 s.ring.checkErrors
        alignLosses := zeroed m 2 s.ring.alignLosses
        controlTaken := zeroed m 3 s.ring.controlTaken
        repliesDropped := zeroed m 4 s.ring.repliesDropped }
      timer := { s.timer with slip := zeroed m 5 s.timer.slip } },
    Answer.counted .ok (((List.range 6).filter fun i => m.testBit i).length))

/-- R155, R158: WRITE. -/
def State.write (s : State) (cls : OrigClass) (t : TableId) (c : Control) : State × Answer :=
  if t.readOnly then (s, Answer.plain .readonly)
  else if t.records ≤ c.index ∨ t.perPayload < c.count then (s, Answer.plain .range)
  else if t = .counters then s.zeroCounters c.arg1
  else State.writeRecords cls t c.count c.index c.payload 0 s

/-- R159: WRITE_IF of WINDOWS. -/
def State.writeWindowIf (s : State) (cls : OrigClass) (n : Fin 32) (expected : Nat) (bytes : List Byte) :
    State × Answer :=
  let rev := (s.scene.shadow.get n).revision
  if s.recordDenied cls n bytes then (s, Answer.plain .denied)
  else if rev ≠ expected then (s, ⟨.stale, 0, rev, 0, []⟩)
  else match s.writeWindow cls n bytes with
    | .written s' => (s', ⟨.ok, 1, (s'.scene.shadow.get n).revision, 0, []⟩)
    | .failed r => (s, Answer.plain r)

/-- R159: WRITE_IF of SOURCES. -/
def State.writeSourceIf (s : State) (n : Fin 32) (expected : Nat) (bytes : List Byte) : State × Answer :=
  let rev := (s.src.records.get n).revision
  if rev ≠ expected then (s, ⟨.stale, 0, rev, 0, []⟩)
  else match s.writeSourceRecord n bytes with
    | .written s' => (s', ⟨.ok, 1, (s'.src.records.get n).revision, 0, []⟩)
    | .failed r => (s, Answer.plain r)

/-- R155, R159: WRITE_IF. -/
def State.writeIf (s : State) (cls : OrigClass) (t : TableId) (c : Control) : State × Answer :=
  match t, index? 32 c.index with
  | .windows, some n => s.writeWindowIf cls n c.arg1 (c.payload.take 80)
  | .sources, some n => s.writeSourceIf n c.arg1 (c.payload.take 12)
  | _, _ => (s, Answer.plain .range)

/-! ### Scene commands (R9, R129, R160, R161) -/

/-- R128, R129: a cue is offered to the queue. -/
def State.offerCue (s : State) (c : Cue) : State × Answer :=
  match s.offerResult c with
  | .ok => (s.addCue c, Answer.plain .ok)
  | .late => (s, Answer.withN .late s.timer.wallN)
  | .far => (s, Answer.withN .far s.timer.wallN)
  | r => (s, Answer.plain r)

/-- R9, R129, R161: COMMIT. -/
def State.commitCommand (s : State) (c : Control) : State × Answer :=
  match c.index with
  | 0 => ({ s with scene := { s.scene with commitPending := true } }, Answer.plain .ok)
  | 1 => s.offerCue (commitCue (BitVec.ofNat 32 (65536 * c.arg1 + c.arg2)))
  | _ => (s, Answer.plain .range)

/-- R8, R156, R161: STACK. -/
def State.stackCommand (s : State) (cls : OrigClass) (c : Control) : State × Answer :=
  match index? 32 c.index with
  | none => (s, Answer.plain .range)
  | some n =>
    if cls = .operator ∧ s.shadowPinned n = true then (s, Answer.plain .denied)
    else match StackOp.ofCode c.arg1 with
      | none => (s, Answer.plain .range)
      | some op =>
        if (s.scene.shadow.get n).enabled = false then (s, Answer.plain .range)
        else ({ s with scene := { s.scene with shadowList := op.apply s.scene.shadow n s.scene.shadowList } },
          Answer.plain .ok)

/-- R160: NUDGE. -/
def State.nudgeCommand (s : State) (cls : OrigClass) (c : Control) : State × Answer :=
  match index? 32 c.index with
  | none => (s, Answer.plain .range)
  | some n =>
    if cls = .operator ∧ s.shadowPinned n = true then (s, Answer.plain .denied)
    else
      let s1 := { s with scene := s.scene.nudge n (signed12 c.arg1) (signed12 c.arg2) }
      (s1, ⟨.ok, 0, (s1.scene.shadow.get n).x, (s1.scene.shadow.get n).y, []⟩)

/-- R16, R161: PRESET_SAVE. -/
def State.presetSave (s : State) (c : Control) : State × Answer :=
  match index? 4 c.index with
  | none => (s, Answer.plain .range)
  | some p => ({ s with scene := s.scene.savePreset p }, Answer.plain .ok)

/-- R17, R161: PRESET_LOAD. -/
def State.presetLoad (s : State) (c : Control) : State × Answer :=
  match index? 4 c.index with
  | none => (s, Answer.plain .range)
  | some p =>
    if (s.scene.presets.get p).valid then ({ s with scene := s.scene.loadPreset p }, Answer.plain .ok)
    else (s, Answer.plain .empty)

/-! ### Cue commands (R128, R134, R139) -/

/-- R128, step 2: an OPERATOR's cue names a window whose shadow record is pinned. -/
def State.cueDenied (s : State) (cls : OrigClass) (c : Cue) : Bool :=
  decide (cls = .operator) && (actionWindow c.action c.window).elim false fun n => s.shadowPinned n

/-- R128, R161: CUE_ADD. -/
def State.cueAdd (s : State) (cls : OrigClass) (c : Control) : State × Answer :=
  match Cue.unpack (c.payload.take 12) with
  | none => (s, Answer.plain .range)
  | some cue =>
    if cue.ok = false then (s, Answer.plain .range)
    else if s.cueDenied cls cue then (s, Answer.plain .denied)
    else match s.offerCue cue with
      | (s1, a) => (s1, if a.result = .ok then Answer.counted .ok s1.cues.queue.length else a)

/-- R134, R161: CUE_CANCEL. -/
def State.cueCancel (s : State) (c : Control) : State × Answer :=
  if 255 < c.arg1 then (s, Answer.plain .range)
  else
    let kept := s.cues.queue.filter fun d => decide (d.tag.toNat ≠ c.arg1)
    let removed := s.cues.queue.length - kept.length
    ({ s with cues := { s.cues with queue := kept } },
      if removed = 0 then Answer.plain .notfound else Answer.counted .ok removed)

/-- R134: CUE_CLEAR. -/
def State.cueClear (s : State) : State × Answer :=
  ({ s with cues := { s.cues with queue := [] } }, Answer.counted .ok s.cues.queue.length)

/-- R139, R161: STROBE. -/
def State.strobe (s : State) (c : Control) : State × Answer :=
  match index? 8 c.index with
  | none => (s, Answer.plain .range)
  | some i => ({ s with cues := { s.cues with strobes := s.cues.strobes.set i true } }, Answer.plain .ok)

/-- R13, R161: HIGHLIGHT_CLEAR. -/
def State.highlightClear (s : State) (c : Control) : State × Answer :=
  match index? 32 c.index with
  | none => (s, Answer.plain .range)
  | some n =>
    ({ s with scene := { s.scene with wins := s.scene.wins.modify n fun w => { w with highlightClear := true } } },
      Answer.plain .ok)

/-- R13, R161: BLANK_CLEAR. -/
def State.blankClear (s : State) (c : Control) : State × Answer :=
  match index? 32 c.index with
  | none => (s, Answer.plain .range)
  | some n =>
    ({ s with scene := { s.scene with wins := s.scene.wins.modify n fun w => { w with blankClear := true } } },
      Answer.plain .ok)

/-! ### Tile commands (R162 to R164) -/

/-- R164: EVENT_ACK. -/
def State.eventAck (s : State) (c : Control) : State × Answer :=
  let set := s.cmd.attention &&& ~~~(BitVec.ofNat 12 c.arg1)
  ({ s with cmd := { s.cmd with attention := set } }, ⟨.ok, 0, set.toNat, 0, []⟩)

/-- R162: the tile takes the hop number of an ENUMERATE as its address. -/
def enumerateTaken (cls : OrigClass) (c : Control) : Bool :=
  decide (cls = .supervisor) && decide (c.destination = 0) && decide (1 ≤ c.arg1) && decide (c.arg1 ≤ 100)

/-- R162: ENUMERATE from a SUPERVISOR. -/
def State.enumerate (s : State) (cls : OrigClass) (c : Control) : State × Answer :=
  if enumerateTaken cls c then
    ({ s with cmd := { s.cmd with address := c.arg1 } }, ⟨.ok, 0, s.cmd.address, 0, []⟩)
  else (s, Answer.plain .range)

/-- R151, R163: the start of the tile reset sequence: bypass, an empty reply queue and status slot, and the values each
block's chapter gives. Kept: the originator table and the address (R163), the link state and the life count (R153). -/
def State.startTileReset (s : State) (originator sequence : Byte) : State :=
  { s with
    ring := { s.ring with
      phase := .tileReset
      signalHeld := s.ring.signal
      resetReply := some (originator, sequence)
      replies := []
      slot := none
      cellsReceived := 0
      checkErrors := 0
      alignLosses := 0
      controlTaken := 0
      repliesDropped := 0 }
    cmd := { s.cmd with attention := 0, intervalCount := 0 }
    timer := s.timer.tileReset
    scene := s.scene.tileReset
    src := s.src.tileReset
    store := s.store.tileReset s.timer.setup.geo
    comp := s.comp.tileReset
    cues := s.cues.tileReset }

/-! ### Taking a command (R154) -/

/-- R154, R156: the class forbids the command as a whole. -/
def Command.forbidden (k : Command) (cls : OrigClass) (t : Option TableId) : Bool :=
  decide (cls = .operator) &&
    match k with
    | .presetSave | .enumerate | .tileReset => true
    | .write => t.elim false TableId.supervisorOnly
    | .read | .writeIf | .commit | .stack | .nudge | .presetLoad | .cueAdd | .cueCancel | .cueClear | .strobe
    | .highlightClear | .blankClear | .eventAck => false

/-- R154: the command takes a table code, and the code names no table. -/
def Command.unknownTable (k : Command) (t : Option TableId) : Bool :=
  match k with
  | .read | .write | .writeIf => t.isNone
  | .commit | .stack | .nudge | .presetSave | .presetLoad | .cueAdd | .cueCancel | .cueClear | .strobe
  | .highlightClear | .blankClear | .eventAck | .enumerate | .tileReset => false

/-- R154, step 3: a command's own checks and work. TILE_RESET is not answered here (`State.takeCommand`). -/
def State.work (s : State) (k : Command) (cls : OrigClass) (t : TableId) (c : Control) : State × Answer :=
  match k with
  | .read => s.read t c.index c.count
  | .write => s.write cls t c
  | .writeIf => s.writeIf cls t c
  | .commit => s.commitCommand c
  | .stack => s.stackCommand cls c
  | .nudge => s.nudgeCommand cls c
  | .presetSave => s.presetSave c
  | .presetLoad => s.presetLoad c
  | .cueAdd => s.cueAdd cls c
  | .cueCancel => s.cueCancel c
  | .cueClear => s.cueClear
  | .strobe => s.strobe c
  | .highlightClear => s.highlightClear c
  | .blankClear => s.blankClear c
  | .eventAck => s.eventAck c
  | .enumerate => s.enumerate cls c
  | .tileReset => (s, Answer.plain .ok)

/-- R154: the judgement of a command: UNKNOWN, then DENIED, then its own checks and work. -/
def State.judge (s : State) (c : Control) : State × Answer :=
  match Command.ofCode c.command.toNat with
  | none => (s, Answer.plain .unknown)
  | some k =>
    let t := TableId.ofCode c.table
    if k.unknownTable t then (s, Answer.plain .unknown)
    else if k.forbidden (s.classOf c.originator) t then (s, Answer.plain .denied)
    else s.work k (s.classOf c.originator) (t.getD .setup) c

/-- R163: the command is a TILE_RESET that starts the sequence. -/
def State.startsReset (s : State) (c : Control) : Bool :=
  decide (Command.ofCode c.command.toNat = some .tileReset) && decide (s.classOf c.originator = .supervisor)

/-- R154: a command is taken, and its reply is built and offered when its work is done. The reply of a TILE_RESET that
starts the sequence is offered at its end (R163). -/
def State.takeCommand (s : State) (c : Control) : State :=
  if s.startsReset c then s.startTileReset c.originator c.sequence
  else match s.judge c with
    | (s1, a) => offerReply (replyBody s1.cmd.address c.originator c.sequence c.command a) s1

/-- R147: the command has this tile take the hop number it carries. -/
def State.takesHop (s : State) (c : Control) : Bool :=
  decide (Command.ofCode c.command.toNat = some .enumerate) && enumerateTaken (s.classOf c.originator) c

end Sys2Proof.Machine
end

