-- ==== Sys2Proof/Machine/RingOps.lean ====
section
/-! DEFINITION. The Ring Port's work (09_the_wall_ring.md): link state changes, the handling of a received cell by link
state and kind, bypass; and the start and the end of the two resets at the ring (R151, R153, R163). -/

namespace Sys2Proof.Machine

/-- The ring port changed. -/
def State.mapRing (s : State) (f : Ring → Ring) : State := { s with ring := f s.ring }

/-- R143, R152: the link state changes: the run count is 0, a change from UP raises alignment losses, and LINK_CHANGE is
latched. -/
def State.changeLink (s : State) (l : LinkState) : State :=
  latch .linkChange
    { s with ring := { s.ring with
        link := l
        runCount := 0
        alignLosses := if s.ring.link = .up then satInc16 s.ring.alignLosses else s.ring.alignLosses } }

/-- R143: the run count of good cells has reached 8 in ALIGNING. -/
def State.linkAligned (s : State) : State :=
  if s.ring.link = .aligning ∧ 8 ≤ s.ring.runCount then s.changeLink .up else s

/-- R143: the run count of bad cells has reached 4 in UP. -/
def State.alignmentLost (s : State) : State :=
  if s.ring.link = .up ∧ 4 ≤ s.ring.runCount then s.changeLink .aligning else s

/-- R143: the receiver reports the inbound signal present. -/
def State.signalPresent (s : State) : State :=
  let s1 := s.mapRing fun r => { r with signal := true }
  if s.ring.phase = .running ∧ s.ring.link = .down then s1.changeLink .aligning else s1

/-- R143, R153: the receiver reports the inbound signal lost. -/
def State.signalLost (s : State) : State :=
  let s1 := s.mapRing fun r => { r with signal := false, signalHeld := false }
  if s.ring.phase = .running ∧ s.ring.link ≠ .down then s1.changeLink .down else s1

/-! ### Received cells (R144 to R147) -/

/-- R152: a cell received whole, good or bad. -/
def Ring.countCell (r : Ring) (good : Bool) : Ring :=
  { r with cellsReceived := satInc16 r.cellsReceived
           checkErrors := if good then r.checkErrors else satInc16 r.checkErrors }

/-- R152: a CONTROL cell handed to the Command Unit. -/
def Ring.countControl (r : Ring) : Ring := { r with controlTaken := satInc16 r.controlTaken }

/-- R143: the run count after a cell of the kind that raises it, or of the other. -/
def Ring.countRun (r : Ring) (raised : Bool) : Ring := { r with runCount := if raised then r.runCount + 1 else 0 }

/-- R144: a cell received in ALIGNING, good or bad: replaced by an IDLE cell. -/
def State.receiveAligning (s : State) (good placeFirst : Bool) : State :=
  (s.mapRing fun r => ((r.countCell good).openPlaceFor idleCell placeFirst).countRun good).linkAligned

/-- R144: a bad cell received in UP: replaced by an IDLE cell. -/
def State.receiveBad (s : State) (placeFirst : Bool) : State :=
  (s.mapRing fun r => ((r.countCell false).openPlaceFor idleCell placeFirst).countRun true).alignmentLost

/-- R145: the cell is forwarded with the bytes given. -/
def State.forward (s : State) (c : Cell) : State := s.mapRing (·.forward c)

/-- R147: the CONTROL cell of a broadcast as it leaves: with its hop raised when this tile takes the number. -/
def State.broadcastLeaving (s : State) (c : Cell) : Cell := if s.takesHop (controlOf c) then raiseHop c else c

/-- R146, R147: a good CONTROL cell in UP. DESIGN CHOICE (log 29): the cell is counted before its command is taken, so a
WRITE of COUNTERS zeroes its own arrival too (R152 gives both orders). -/
def State.receiveControl (s : State) (c : Cell) (placeFirst : Bool) : State :=
  let k := controlOf c
  if k.destination = 0 then
    ((s.mapRing Ring.countControl).forward (s.broadcastLeaving c)).takeCommand k
  else if k.destination = s.cmd.address then
    (s.mapRing fun r => r.countControl.openPlaceFor idleCell placeFirst).takeCommand k
  else s.forward c

/-- R145, Table 9-2: a good cell in UP, by its kind. -/
def State.receiveGood (s : State) (c : Cell) (placeFirst : Bool) : State :=
  let s1 := s.mapRing fun r => (r.countCell true).countRun false
  match cellKind c with
  | .strip => (s1.forward c).stripArrival (stripOf c)
  | .sync => (s1.forward c).syncArrival (syncNumber c) (syncFlags c)
  | .control => s1.receiveControl c placeFirst
  | .idle => s1.mapRing (·.openPlaceFor c placeFirst)
  | .reply | .status | .noMeaning => s1.forward c

/-- R144: a whole cell received, by the link state at its arrival. -/
def State.receive (s : State) (c : Cell) (placeFirst : Bool) : State :=
  match s.ring.link with
  | .down => s
  | .aligning => s.receiveAligning (cellGood c) placeFirst
  | .up => if cellGood c then s.receiveGood c placeFirst else s.receiveBad placeFirst

/-- R151: in bypass each received cell is sent unchanged; while the signal is absent nothing is. -/
def State.bypass (s : State) (c : Cell) : State := if s.ring.signal then s.forward c else s

/-! ### Resets (R151, R153, R163) -/

/-- R24, R60, R94, R98, R125, R140, R153: every block takes its power-on values; the tile is in bypass (R151). The report of
the receiver is not the tile's to reset, and what has left has left (log 23). -/
def State.powerOnReset (s : State) : State :=
  { State.reset with
    ring := { Ring.powerOn with phase := .powerOnReset, signal := s.ring.signal, outbound := s.ring.outbound }
    freeIdx := s.freeIdx
    pending := s.pending }

/-- R151: bypass ends, and the first frame begins at line 0 (R113). -/
def State.endBypass (s : State) : State :=
  { s with ring := { s.ring with phase := .running }, timer := s.timer.beginFrame }

/-- R153: power-on reset ends. -/
def State.powerOnResetEnd (s : State) : State :=
  if s.ring.phase = .powerOnReset then
    if s.ring.signal then s.endBypass.changeLink .aligning else s.endBypass
  else s

/-- R153: the link state at the end of a tile reset. -/
def Ring.linkAfterReset (r : Ring) : LinkState :=
  if r.link = .up ∧ r.signal = true ∧ r.signalHeld = true then .up
  else if r.signal then .aligning
  else .down

/-- R153: the link at the end of a tile reset: the run count is 0, and a change is latched. -/
def State.settleLink (s : State) : State :=
  if s.ring.linkAfterReset = s.ring.link then s.mapRing fun r => { r with runCount := 0 }
  else s.changeLink s.ring.linkAfterReset

/-- R151, R163: the TILE_RESET reply is offered at the end of the sequence. -/
def State.offerResetReply (s : State) : State :=
  match s.ring.resetReply with
  | none => s
  | some (originator, sequence) =>
    offerReply (replyBody s.cmd.address originator sequence 17 (Answer.plain .ok))
      (s.mapRing fun r => { r with resetReply := none })

/-- R163: the tile reset sequence ends. -/
def State.tileResetEnd (s : State) : State :=
  if s.ring.phase = .tileReset then s.endBypass.settleLink.offerResetReply else s

/-! ### Commands that act while the tile is not in reset (log 17) -/

/-- A command's effect outside of reset; in reset it does nothing. -/
def State.whenRunning (s : State) (f : State → State) : State := if s.ring.phase = .running then f s else s

end Sys2Proof.Machine
end

