-- ==== Sys2Proof/Machine/Events.lean ====
section
/-! DEFINITION. The meanings of the commands for single parts of a frame mark: STALL_LIMIT, LOSS_LIMIT, CUE_EXPIRY, TOUR_STEP,
STATUS_INTERVAL (log 3). -/

namespace Sys2Proof.Machine

/-- STALL_LIMIT (R57). -/
def execStallLimit (source : Fin 32) (s : State) : Host.Outcome State Fault Refusal :=
  .next (s.whenRunning fun t => t.stallSource source)

/-- LOSS_LIMIT (R57). -/
def execLossLimit (source : Fin 32) (s : State) : Host.Outcome State Fault Refusal :=
  .next (s.whenRunning fun t => t.loseSource source)

/-- CUE_EXPIRY (R131, R132). -/
def execCueExpiry (s : State) : Host.Outcome State Fault Refusal := .next (s.whenRunning State.expireCue)

/-- TOUR_STEP (R20, R21). -/
def execTourStep (window : Fin 32) (s : State) : Host.Outcome State Fault Refusal :=
  .next (s.whenRunning fun t => t.stepTour window)

/-- STATUS_INTERVAL (R165). -/
def execStatusInterval (s : State) : Host.Outcome State Fault Refusal := .next (s.whenRunning State.statusInterval)

end Sys2Proof.Machine
end

