-- ==== Sys2Proof/Machine/Resets.lean ====
section
/-! DEFINITION. The meanings of POWER_ON_RESET, POWER_ON_RESET_END and TILE_RESET_END. -/

namespace Sys2Proof.Machine

/-- POWER_ON_RESET (R151, R153 and the power-on values of every block). -/
def execPowerOnReset (s : State) : Host.Outcome State Fault Refusal := .next s.powerOnReset

/-- POWER_ON_RESET_END (R151, R153). -/
def execPowerOnResetEnd (s : State) : Host.Outcome State Fault Refusal := .next s.powerOnResetEnd

/-- TILE_RESET_END (R151, R153, R163). -/
def execTileResetEnd (s : State) : Host.Outcome State Fault Refusal := .next s.tileResetEnd

end Sys2Proof.Machine
end

