-- ==== Sys2Proof/Machine/RingPort.lean ====
section
/-! DEFINITION. The meanings of the ring's commands: SIGNAL_PRESENT, SIGNAL_LOST, CELL_RECEIVED, BYPASS_CELL, LINK_ALIGNED,
LINK_ALIGNMENT_LOSS, IDLE_GENERATE, IDLE_PLACE. -/

namespace Sys2Proof.Machine

/-- SIGNAL_PRESENT (R143). -/
def execSignalPresent (s : State) : Host.Outcome State Fault Refusal := .next s.signalPresent

/-- SIGNAL_LOST (R143). A partly received cell is no command, so there is none to drop. -/
def execSignalLost (s : State) : Host.Outcome State Fault Refusal := .next s.signalLost

/-- CELL_RECEIVED (R142 to R152). In reset the cell is repeated as R151 gives. -/
def execCellReceived (c : Cell) (placeFirst : Bool) (s : State) : Host.Outcome State Fault Refusal :=
  if Cell.Whole c then .next (if s.ring.phase = .running then s.receive c placeFirst else s.bypass c)
  else .refused .notWholeCell

/-- BYPASS_CELL (R151); outside of reset there is no bypass (log 17). -/
def execBypassCell (c : Cell) (s : State) : Host.Outcome State Fault Refusal :=
  if Cell.Whole c then .next (if s.ring.phase = .running then s else s.bypass c)
  else .refused .notWholeCell

/-- LINK_ALIGNED (R143). -/
def execLinkAligned (s : State) : Host.Outcome State Fault Refusal := .next (s.whenRunning State.linkAligned)

/-- LINK_ALIGNMENT_LOSS (R143). -/
def execLinkAlignmentLoss (s : State) : Host.Outcome State Fault Refusal := .next (s.whenRunning State.alignmentLost)

/-- IDLE_GENERATE (R150): in DOWN, an IDLE cell of the tile's own comes to the outbound side. DESIGN CHOICE (log 28): from
ALIGNING on none is generated, also before the first cell is received. -/
def execIdleGenerate (s : State) : Host.Outcome State Fault Refusal :=
  .next (s.whenRunning fun t => if t.ring.link = .down then t.mapRing (·.openPlace idleCell) else t)

/-- IDLE_PLACE (R149): the open place is given. In bypass it is filled by no cell, and without a signal not sent (R151). -/
def execIdlePlace (s : State) : Host.Outcome State Fault Refusal := .next (s.mapRing Ring.givePlace)

end Sys2Proof.Machine
end

