-- ==== Sys2Proof/Machine/Timing.lean ====
section
/-! DEFINITION. The meanings of the timing commands: LOCK_ACQUIRED, LOCK_BAD_LIMIT, ACQUIRE_MISSED_LIMIT, HOLDOVER_LIMIT,
START_TIMEOUT, LINE_START, FRAME_MARK. The thresholds act on the state as it stands (log 3). -/

namespace Sys2Proof.Machine

/-- LOCK_ACQUIRED (R118, R122), with the trim that the state entered gives (R116). -/
def execLockAcquired (s : State) : Host.Outcome State Fault Refusal :=
  .next (s.whenRunning fun t =>
    if t.timer.lock = .acquire ∧ 8 ≤ t.timer.good then t.lockAcquired.setTrim else t)

/-- LOCK_BAD_LIMIT (R118), with the trim that the state entered gives (R116). -/
def execLockBadLimit (s : State) : Host.Outcome State Fault Refusal :=
  .next (s.whenRunning fun t =>
    if t.timer.lock = .locked ∧ 3 ≤ t.timer.bad then t.lockBadLimit.setTrim else t)

/-- ACQUIRE_MISSED_LIMIT (R119). -/
def execAcquireMissedLimit (s : State) : Host.Outcome State Fault Refusal :=
  .next (s.whenRunning State.acquireMissedLimit)

/-- HOLDOVER_LIMIT (R119). -/
def execHoldoverLimit (s : State) : Host.Outcome State Fault Refusal := .next (s.whenRunning State.holdoverLimit)

/-- START_TIMEOUT (R122). -/
def execStartTimeout (s : State) : Host.Outcome State Fault Refusal := .next (s.whenRunning State.startTimeout)

/-- LINE_START (R97, R113). At the end of the frame this line start is the frame mark and line 0's start (R113, R116). -/
def execLineStart (s : State) : Host.Outcome State Fault Refusal :=
  .next (if s.marksNext then s.lineMark else s.panelLine)

/-- FRAME_MARK (R114). Line 0 is built by the LINE_START that follows (log 2). Where the frame in progress is not at its end,
as when a SYNC cell has just lengthened it, this line start is no mark, but the next line's (R113, R115, R116). -/
def execFrameMark (order : MarkOrder) (s : State) : Host.Outcome State Fault Refusal :=
  .next (if s.marksNext then s.frameMark order else s.panelLine)

end Sys2Proof.Machine
end

