-- ==== Sys2Proof/Machine/Dispatch.lean ====
section
/-! DEFINITION. The dispatch: one arm for each command of the table. -/

namespace Sys2Proof.Machine

def exec (i : Instr) (s : State) : Host.Outcome State Fault Refusal :=
  match i with
  | .powerOnReset => Sys2Proof.Machine.execPowerOnReset s
  | .powerOnResetEnd => Sys2Proof.Machine.execPowerOnResetEnd s
  | .signalPresent => Sys2Proof.Machine.execSignalPresent s
  | .signalLost => Sys2Proof.Machine.execSignalLost s
  | .cellReceived cell placeFirst => Sys2Proof.Machine.execCellReceived cell placeFirst s
  | .bypassCell cell => Sys2Proof.Machine.execBypassCell cell s
  | .linkAligned => Sys2Proof.Machine.execLinkAligned s
  | .linkAlignmentLoss => Sys2Proof.Machine.execLinkAlignmentLoss s
  | .idleGenerate => Sys2Proof.Machine.execIdleGenerate s
  | .idlePlace => Sys2Proof.Machine.execIdlePlace s
  | .lockAcquired => Sys2Proof.Machine.execLockAcquired s
  | .lockBadLimit => Sys2Proof.Machine.execLockBadLimit s
  | .tileResetEnd => Sys2Proof.Machine.execTileResetEnd s
  | .lineStart => Sys2Proof.Machine.execLineStart s
  | .frameMark order => Sys2Proof.Machine.execFrameMark order s
  | .acquireMissedLimit => Sys2Proof.Machine.execAcquireMissedLimit s
  | .holdoverLimit => Sys2Proof.Machine.execHoldoverLimit s
  | .startTimeout => Sys2Proof.Machine.execStartTimeout s
  | .stallLimit source => Sys2Proof.Machine.execStallLimit source s
  | .lossLimit source => Sys2Proof.Machine.execLossLimit source s
  | .cueExpiry => Sys2Proof.Machine.execCueExpiry s
  | .tourStep window => Sys2Proof.Machine.execTourStep window s
  | .statusInterval => Sys2Proof.Machine.execStatusInterval s

end Sys2Proof.Machine
end

