-- ==== Sys2Proof/Safety.lean ====
section
/-! DEFINITION. What the spec says holds of the tile at every moment, as predicates over State, and the frames that
statements are made of: which blocks a command leaves as they were. -/

namespace Sys2Proof.Machine

/-! ### Frames -/

/-- Every byte of the frame memory reads as before. -/
def MemoryKept (s t : State) : Prop := ∀ a, t.store.mem.readByte a = s.store.mem.readByte a

/-- The Store Manager and its frame memory are as before, byte by byte. -/
def StoreKept (s t : State) : Prop := t.store = s.store ∧ MemoryKept s t

/-- The blocks of the picture path, the scene and the cues are as before. -/
def PictureKept (s t : State) : Prop :=
  t.scene = s.scene ∧ t.src = s.src ∧ StoreKept s t ∧ t.comp = s.comp ∧ t.cues = s.cues ∧ t.freeIdx = s.freeIdx

/-- Every block but the Ring Port and the Command Unit is as before. -/
def InnerKept (s t : State) : Prop := t.timer = s.timer ∧ PictureKept s t

/-- Every block but the Ring Port is as before. -/
def AllButRingKept (s t : State) : Prop := t.cmd = s.cmd ∧ InnerKept s t

/-- The Command Unit is as before, but for the attention set. -/
def CommandKept (s t : State) : Prop :=
  t.cmd.address = s.cmd.address ∧ t.cmd.origins = s.cmd.origins ∧ t.cmd.intervalCount = s.cmd.intervalCount

/-- One kind is latched on the way from s to t (R164, R165): the kind enters the attention set, nothing else of the Command
Unit changes, and the status slot holds a STATUS cell of the tile as it then stands when the kind is in the event mask, and
is as it was otherwise. -/
def Latched (k : EventKind) (s t : State) : Prop :=
  t.cmd.attention = s.cmd.attention ||| k.bit ∧ CommandKept s t ∧
  t.ring.slot = if kindIn s.timer.setup.eventMask k then some (statusBody t) else s.ring.slot

/-- R165: the status slot holds a STATUS cell built on the way to t. -/
def StatusBuilt (t : State) : Prop := ∃ u : State, t.ring.slot = some (statusBody u)

/-- R165: at the mark from s to t the interval count reaches the status interval that the Command Unit finds in force, before
or after the Frame Timer's work (the operand, log 5). -/
def IntervalDue (o : MarkOrder) (s t : State) : Prop :=
  (if o.commandFirst = true then s else t).timer.setup.statusInterval ≤ s.cmd.intervalCount + 1

/-- Table 10-3: the kinds that a frame mark from s to t latches, with what the Scene Controller's and the Store Manager's work
came to: a late cue was taken (R131), a commit was taken (R10), an allocation left a window degraded (R92). -/
def MarkLatches (s t : State) (late commit short : Prop) : EventKind → Prop
  | .lockChange => t.timer.lock ≠ s.timer.lock
  | .setupTaken => s.timer.pendSetup ≠ none
  | .gateOpen => t.timer.gate ≠ s.timer.gate
  | .sourceStalled => ∃ n, ((s.src.states.get n).state = .waiting ∨ (s.src.states.get n).state = .live) ∧
      (s.src.records.get n).stallLimit ≤ (t.src.states.get n).sinceStart
  | .sourceLost => ∃ n, (s.src.states.get n).state ≠ .lost ∧ (t.src.states.get n).state = .lost
  | .cueLate => late
  | .commitTaken => commit
  | .nomem => short
  | .linkChange | .repliesDropped | .slip | .sourceLive => False

/-- R114, R165: the event mask in force when a frame mark from s to t latches a kind: the setup latch comes before all of them
but the LOCK_CHANGE of a missed frame (that the kinds of the setup latch itself are judged by the new mask: log 15). -/
def markMask (s t : State) (k : EventKind) : BitVec 12 :=
  if k = .lockChange ∧ s.timer.syncNoted = false then s.timer.setup.eventMask else t.timer.setup.eventMask

/-- The Ring Port is as before, but for the status slot. -/
def RingKeptButSlot (s t : State) : Prop := t.ring = { s.ring with slot := t.ring.slot }

/-- R116: the length of the frame in progress with a trim: V + trim, or, where the line count is already there, the frame
ends at the next line start, L + 1 lines long (that L + 1 is the length kept is the model's choice, log 31). -/
def State.frameLengthWith (s : State) (trim : Int) : Nat :=
  if ((s.timer.setup.v : Int) + trim).toNat ≤ s.timer.lineCount then s.timer.lineCount + 1
  else ((s.timer.setup.v : Int) + trim).toNat

/-! ### The outbound side -/

/-- R145, R149, R152: the Ring Port after a good cell in UP is counted and forwarded; a place that stands open leaves first. -/
def Ring.passed (r : Ring) (c : Cell) : Ring :=
  { r.givePlace with
    outbound := r.givePlace.outbound ++ [c]
    runCount := 0
    cellsReceived := min 65535 (r.cellsReceived + 1) }

/-- R145, R149, R152: the Ring Port after a good cell in UP is counted and the place of an IDLE cell opens in its stead: left
open, or given at once (log 4). -/
def Ring.opened (r : Ring) (idle : Cell) (placeFirst : Bool) : Ring :=
  { (if placeFirst = true then ({ r.givePlace with place := some idle } : Ring).givePlace
      else { r.givePlace with place := some idle }) with
    runCount := 0
    cellsReceived := min 65535 (r.cellsReceived + 1) }

/-- R144, R149: what has left, and the place, where a cell is replaced by an IDLE cell: the place is left open, or given at once
to the cell that R149 says (log 4). -/
def PlaceOpened (s t : State) (idle : Cell) (placeFirst : Bool) : Prop :=
  (placeFirst = false → t.ring.place = some idle ∧ t.ring.outbound = s.ring.givePlace.outbound) ∧
  (placeFirst = true → t.ring.place = none ∧
    t.ring.outbound = ({ s.ring.givePlace with place := some idle } : Ring).givePlace.outbound)

/-! ### Requests to the scene at a mark (R137) -/

/-- R12: the blank of window n becomes `a`, when the window is enabled in the active table. -/
def SceneWork.withBlank (k : SceneWork) (n : Fin 32) (a : AlarmState) : SceneWork :=
  if (k.scene.active.get n).enabled = true then
    { k with scene := { k.scene with wins := k.scene.wins.set n { k.scene.wins.get n with blank := a } } }
  else k

/-- R12: the highlight of window n becomes `a`, when the window is enabled in the active table. -/
def SceneWork.withHighlight (k : SceneWork) (n : Fin 32) (a : AlarmState) : SceneWork :=
  if (k.scene.active.get n).enabled = true then
    { k with scene := { k.scene with wins := k.scene.wins.set n { k.scene.wins.get n with highlight := a } } }
  else k

/-! ### Cues (R128 to R130, R161) -/

/-- R128, steps 3 to 5, with R130's admission limit, and R161: what offering a cue comes to; an accepted one answers with
`count`. -/
def CueOffered (s : State) (cue : Cue) (count : Nat) (answer : State × Answer) : Prop :=
  ∀ (d limit n : Nat), d = (cue.target - s.timer.wallN).toNat → n = s.timer.wallN.toNat →
    limit = (match s.timer.pendSetup with
      | none => s.timer.setup.cueCapacity
      | some copy => min s.timer.setup.cueCapacity copy.cueCapacity) →
    (d = 0 ∨ 2 ^ 31 ≤ d → answer = (s, ⟨.late, 0, n / 65536, n % 65536, []⟩)) ∧
    (0 < d → d < 2 ^ 31 → s.timer.setup.lookAhead < d → answer = (s, ⟨.far, 0, n / 65536, n % 65536, []⟩)) ∧
    (0 < d → d < 2 ^ 31 → d ≤ s.timer.setup.lookAhead → limit ≤ s.cues.queue.length →
      answer = (s, ⟨.full, 0, 0, 0, []⟩)) ∧
    (0 < d → d < 2 ^ 31 → d ≤ s.timer.setup.lookAhead → s.cues.queue.length < limit →
      answer = ({ s with cues := { s.cues with queue := insertCue s.timer.wallN cue s.cues.queue } },
        ⟨.ok, count, 0, 0, []⟩))

/-! ### Frame stores at a mark (R78, R86, R88, R90) -/

/-- R86, R87, R78: the buffers of a window that is re-armed: READY is discarded, a FILLING buffer waits for a start. -/
def WinStore.rearmedBufs (w : WinStore) : List Buffer :=
  w.bufs.map fun b =>
    if b.role = .ready then { b with role := if w.bufs.length = 2 then .filling .armed else .spare }
    else if b.role.isFilling = true then { b with role := .filling .armed }
    else b

/-- R88, R90: window n needs a store, of visible rectangle v: enabled, LIVE or FREEZE, and visible. -/
def HandOver.Needs (h : HandOver) (n : Fin 32) (v : VisRect) : Prop :=
  (h.active.get n).enabled = true ∧ ((h.active.get n).mode = .live ∨ (h.active.get n).mode = .freeze) ∧
  visibleRect h.geo (h.active.get n) = some v

/-- R88: the keep rule. -/
def HandOver.Keeps (h : HandOver) (n : Fin 32) (w : WinStore) : Prop :=
  h.Needs n w.sized ∧ (h.changes.get n).enabled = false ∧ (h.changes.get n).source = false ∧
  (h.changes.get n).tour = false ∧ (1 ≤ (h.active.get n).tourLen ∨ (h.changes.get n).crop = false)

/-- R78: the source that feeds window n in the scene handed over. -/
def HandOver.Feeds (h : HandOver) (n : Fin 32) (feed : Option (Fin 32)) : Prop :=
  feed = if (h.active.get n).enabled = true ∧ 1 ≤ (h.active.get n).tourLen then h.tours.get n
    else some (h.active.get n).source

/-! ### Records as READ returns them (R157, Table 11-5) -/

/-- R6, Table 11-5: the first 33 of the 36 bytes of a stacking list: the entry count, the window numbers front first, and 255
past the count. -/
def ListRecord (l : List (Fin 32)) (r : List Byte) : Prop :=
  r.length = 36 ∧ (byteAt r 0).toNat = l.length ∧
  (∀ i n, l[i]? = some n → (byteAt r (1 + i)).toNat = n.val) ∧
  ∀ i, l.length ≤ i → i < 32 → byteAt r (1 + i) = 255

/-- A byte that holds yes or no (R167). -/
def yesNo (b : Bool) : Byte := if b = true then 1 else 0

/-! ### Ranges -/

/-- R143, R148, R149, R152: run count, reply queue, life count and link counters; R162: the address. -/
def RingInRange (s : State) : Prop :=
  (match s.ring.link with
    | .down => s.ring.runCount = 0
    | .aligning => s.ring.runCount ≤ 7
    | .up => s.ring.runCount ≤ 3) ∧
  s.ring.replies.length ≤ 8 ∧ s.ring.life ≤ 255 ∧
  s.ring.cellsReceived ≤ 65535 ∧ s.ring.checkErrors ≤ 65535 ∧ s.ring.alignLosses ≤ 65535 ∧
  s.ring.controlTaken ≤ 65535 ∧ s.ring.repliesDropped ≤ 65535 ∧ s.cmd.address ≤ 100

/-- R116, R117, R115, R122: the counts of the Frame Timer and the trim; R113, R116: the line in progress lies in its frame,
whose length is V - 8 to V + 8. -/
def TimerInRange (s : State) : Prop :=
  s.timer.good ≤ 7 ∧ s.timer.bad ≤ 2 ∧ s.timer.missed ≤ 1000 ∧ s.timer.startCount ≤ 1000 ∧ s.timer.slip ≤ 65535 ∧
  -8 ≤ s.timer.trim ∧ s.timer.trim ≤ 8 ∧
  s.timer.lineCount < s.timer.frameLen ∧ s.timer.setup.v ≤ s.timer.frameLen + 8 ∧
  s.timer.frameLen ≤ s.timer.setup.v + 8

/-- R55, R58, R59: the counts of one source. -/
def SourceTrack.inRange (t : SourceTrack) : Prop :=
  t.sinceStart ≤ 65535 ∧ t.runningStarts ≤ 15 ∧ t.lastStarts ≤ 15 ∧ t.completed ≤ 65535 ∧ t.rejected ≤ 65535 ∧
  t.discarded ≤ 65535 ∧ t.sequence ≤ 65535

/-- R55, R58, R59, R93, R92: the counts of every source and window. -/
def CountsInRange (s : State) : Prop :=
  (∀ n, (s.src.states.get n).inRange) ∧
  (∀ n, (s.store.wins.get n).shown ≤ 65535 ∧ (s.store.wins.get n).dropped ≤ 65535 ∧
    (s.store.wins.get n).repeated ≤ 65535) ∧
  s.store.degraded ≤ 32

/-! ### Records (R2, R46, R123, R128, R130) -/

/-- R2: the shadow and active records and the records saved in presets meet the constraints of Table 1-2. -/
def WindowRecordsLegal (s : State) : Prop :=
  (∀ n, (s.scene.shadow.get n).ok = true) ∧ (∀ n, (s.scene.active.get n).ok = true) ∧
  ∀ p n r, (s.scene.presets.get p).slots.get n = some r → r.ok = true

/-- R46: every source record meets its checks. -/
def SourceRecordsLegal (s : State) : Prop := ∀ n, (s.src.records.get n).ok = true

/-- R123, R127, R130: the setup in force and the pending copy are legal, with the number of cues now in the queue. -/
def SetupLegal (s : State) : Prop :=
  s.timer.setup.ok s.cues.queue.length = true ∧
  ∀ copy, s.timer.pendSetup = some copy → copy.ok s.cues.queue.length = true

/-- R127, Table 8-1: every cue of the queue has the fields a cue may have. -/
def CuesLegal (s : State) : Prop := ∀ c ∈ s.cues.queue, c.ok = true ∧ c.period ≤ 65535

/-- R127, R128: the queue is in order of distance from the wall frame number, and every cue's target is ahead of it. -/
def QueueInOrder (s : State) : Prop :=
  s.cues.queue.Pairwise (fun a b => distance s.timer.wallN a.target ≤ distance s.timer.wallN b.target) ∧
  ∀ c ∈ s.cues.queue, atOrBefore s.timer.wallN c.target = false

/-! ### Stacking lists and presets (R6, R16, R17) -/

/-- R6: a stacking list of a table: every enabled window exactly once, no disabled one, pinned before unpinned. -/
def ListOf (t : Table WinRec 32) (l : List (Fin 32)) : Prop :=
  l.Nodup ∧ (∀ n, n ∈ l ↔ (t.get n).enabled = true) ∧
  l.Pairwise fun a b => (t.get b).pinned = true → (t.get a).pinned = true

/-- R14: window n stands at the front of its tier, and the other windows in their order; a list in which it does not stand is
unchanged. -/
def RaisedIn (t : Table WinRec 32) (n : Fin 32) (before after : List (Fin 32)) : Prop :=
  (n ∉ before → after = before) ∧
  (n ∈ before → ∃ front back, after = front ++ n :: back ∧
    front ++ back = (before.filter fun m => decide (m ≠ n)) ∧
    ((t.get n).pinned = true → front = []) ∧
    ((t.get n).pinned = false → (∀ m ∈ front, (t.get m).pinned = true) ∧ ∀ m ∈ back, (t.get m).pinned = false))

/-- R16: a preset: its list holds the windows enabled in its slots, each once, and its slots hold unpinned records. -/
def Preset.sound (p : Preset) : Prop :=
  p.list.Nodup ∧ (∀ n, n ∈ p.list ↔ ∃ r, p.slots.get n = some r ∧ r.enabled = true) ∧
  ∀ n r, p.slots.get n = some r → r.pinned = false

/-- R6, R16, R17. -/
def ListsLegal (s : State) : Prop :=
  ListOf s.scene.shadow s.scene.shadowList ∧ ListOf s.scene.active s.scene.activeList ∧
  ∀ p, (s.scene.presets.get p).sound

/-! ### Frame stores (R77, R78, R44) -/

/-- The pages of every buffer of every window. -/
def StoreManager.heldPages (m : StoreManager) : List Page :=
  (indices 32).flatMap fun n => (m.wins.get n).bufs.flatMap (·.pages)

/-- R77: each page is on the free list or in the page list of exactly one buffer: the free pages and the held ones together
are the 8192 pages, each once. -/
def PagesAccounted (s : State) : Prop := List.Perm (s.store.free ++ s.store.heldPages) (indices 8192)

/-- The number of buffers of a window in a role. -/
def WinStore.count (w : WinStore) (p : Role → Bool) : Nat := w.bufs.countP fun b => p b.role

/-- R78: the roles that a window's buffers may take. -/
def WinStore.rolesLegal (w : WinStore) : Prop :=
  w.bufs.length ≤ 3 ∧
  (w.bufs ≠ [] → w.count (fun r => decide (r = .showing)) = 1) ∧
  w.count Role.isFilling ≤ 1 ∧
  w.count (fun r => decide (r = .ready)) ≤ 1 ∧
  (w.bufs.length = 2 → w.count (fun r => decide (r = .spare)) = 0) ∧
  (w.bufs.length = 3 → w.count Role.isFilling = 1)

/-- R78, for every window. -/
def RolesLegal (s : State) : Prop := ∀ n, (s.store.wins.get n).rolesLegal

/-- R44, R78: every buffer of a window has the pages of the rectangle it was sized for. -/
def BuffersSized (s : State) : Prop :=
  ∀ n, ∀ b ∈ (s.store.wins.get n).bufs, b.pages.length = pagesPerBuffer (s.store.wins.get n).sized

/-- The frame memory has its canonical form. -/
def MemoryCanonical (s : State) : Prop := s.store.mem.wf

end Sys2Proof.Machine
end

