-- ==== Sys2Proof/Certificates/Slice0/Obligations.lean ====
section
/-! DEFINITION. The statements about the tile. Each docstring names the rule of spec/ it formalises, or says which clause is
the model's own choice and names its log entry. `t` is the state after the command, `s` the state before. -/

open Sys2Proof Sys2Proof.Machine

/-! ### Steps -/

/-- Logs 1 and 20 (the queue and the refusal are the model's): a step carries out the command at the front of the queue on
the state with the rest of the queue; with an empty queue nothing changes. -/
def Obligations.StepRunsFrontCommand : Prop :=
  (∀ (c : Instr) (rest : List Instr) (s : State), s.pending = c :: rest →
    step s = exec c { s with pending := rest }) ∧
  (∀ s : State, s.pending = [] → step s = .next s)

/-- Every well-formed command answers a next state in every state; an operand that is no whole cell (R142) is refused by
name (log 20). A command's effect leaves the queue of waiting commands as it was (log 1). -/
def Obligations.WellFormedCommandsComplete : Prop :=
  ∀ (c : Instr) (s : State), (WellFormed c = true → ∃ t, exec c s = .next t) ∧
    (WellFormed c = false → exec c s = .refused .notWholeCell) ∧
    ∀ t, exec c s = .next t → t.pending = s.pending

/-! ### Resets -/

/-- R24: the Scene Controller after power-on reset, with the default record of Table 1-6. -/
def Obligations.PowerOnResetScene : Prop :=
  ∀ s : State, ∃ t d, exec .powerOnReset s = .next t ∧
    (∀ n, t.scene.shadow.get n = d ∧ t.scene.active.get n = d) ∧
    (d.enabled = false ∧ d.pinned = false ∧ d.source = 0 ∧ d.tourLen = 0 ∧ (∀ i, d.tourList.get i = 0) ∧ d.dwell = 0 ∧
      (d.x, d.y, d.w, d.h) = (0, 0, 16, 16) ∧ (d.cx, d.cy, d.cw, d.ch) = (0, 0, 16, 16) ∧
      d.mode = .live ∧ d.loss = .hold ∧ d.fill = ⟨0, 0, 0⟩ ∧ d.borderWidth = 0 ∧ d.border = ⟨767, 767, 767⟩ ∧
      d.stale = ⟨1023, 767, 0⟩ ∧ d.alarm = ⟨1023, 0, 0⟩ ∧ d.capPlace = .top ∧ d.capSize = 1 ∧
      d.capFg = ⟨1023, 1023, 1023⟩ ∧ d.capBg = ⟨0, 0, 0⟩ ∧ d.capLen = 0 ∧ (∀ i, d.capText.get i = 0) ∧ d.revision = 0) ∧
    d.ok = true ∧
    (∀ old : WinRec, old.pinned = false →
      loadedRecord old none = { d with revision := (old.revision + 1) % 65536 }) ∧
    t.scene.shadowList = [] ∧ t.scene.activeList = [] ∧
    (∀ p, (t.scene.presets.get p).valid = false ∧ (∀ n, (t.scene.presets.get p).slots.get n = none) ∧
      (t.scene.presets.get p).list = []) ∧
    t.scene.commitPending = false ∧ t.scene.recallNote = false ∧
    (∀ n, (t.scene.wins.get n).blank = .off ∧ (t.scene.wins.get n).highlight = .off ∧
      (t.scene.wins.get n).epoch = 0 ∧ (t.scene.wins.get n).tourSource = none ∧
      (t.scene.wins.get n).blankClear = false ∧ (t.scene.wins.get n).highlightClear = false)

/-- R60: the sources after power-on reset, with the default record of Table 3-6. -/
def Obligations.PowerOnResetSources : Prop :=
  ∀ s : State, ∃ t, exec .powerOnReset s = .next t ∧ ∀ n,
    t.src.records.get n = ⟨false, .rgb8, 1920, 1080, 30, 0, 300, 0⟩ ∧ (t.src.records.get n).ok = true ∧
    (t.src.states.get n).state = .off ∧ (t.src.states.get n).tag = none ∧ (t.src.states.get n).frameOpen = false ∧
    (t.src.states.get n).accepted = 0 ∧ (t.src.states.get n).lastLine = 0 ∧ (t.src.states.get n).lastSegment = 0 ∧
    (t.src.states.get n).sinceStart = 0 ∧ (t.src.states.get n).startPhase = 0 ∧
    (t.src.states.get n).runningStarts = 0 ∧ (t.src.states.get n).lastStarts = 0 ∧
    (t.src.states.get n).completed = 0 ∧ (t.src.states.get n).rejected = 0 ∧
    (t.src.states.get n).discarded = 0 ∧ (t.src.states.get n).sequence = 0

/-- R94, R98, R112, R156, R162, R164, R165: the Store Manager, the Compositor and the Command Unit after power-on reset.
That frame memory then reads the byte 0 is the model's choice (log 8). R112: the built-in glyphs: codes 0..32 and 127 are blank;
for codes 33..126 bit r of a byte of Table 6-5 is the glyph bit at row 4 + r of its column, 4 to 8, and every other bit is
clear. -/
def Obligations.PowerOnResetStoresAndPanel : Prop :=
  ∀ s : State, ∃ t, exec .powerOnReset s = .next t ∧
    t.store.free = indices 8192 ∧
    (∀ n, (t.store.wins.get n).bufs = [] ∧ (t.store.wins.get n).feeding = none ∧ (t.store.wins.get n).shown = 0 ∧
      (t.store.wins.get n).dropped = 0 ∧ (t.store.wins.get n).repeated = 0) ∧
    t.store.degraded = 0 ∧ (∀ a, t.store.mem.readByte a = 0) ∧
    t.comp.glyphs = builtInGlyphs ∧ glyphColumns.length = 94 ∧
    (∀ (code : Fin 128) (row : Fin 16) (col : Nat), col < 12 →
      (code.val ≤ 32 ∨ code.val = 127 → ((t.comp.glyphs.get code).get row).getLsbD (11 - col) = false) ∧
      (33 ≤ code.val → code.val ≤ 126 →
        (row.val < 4 ∨ 11 < row.val ∨ col < 4 ∨ 8 < col →
          ((t.comp.glyphs.get code).get row).getLsbD (11 - col) = false) ∧
        (∀ (bytes : List Byte) (b : Byte), glyphColumns[code.val - 33]? = some bytes → 4 ≤ col → bytes[col - 4]? = some b →
          4 ≤ row.val → row.val ≤ 11 →
          ((t.comp.glyphs.get code).get row).getLsbD (11 - col) = b.getLsbD (row.val - 4)))) ∧
    glyphColumns[65 - 33]? = some [0x7E, 0x11, 0x11, 0x11, 0x7E] ∧
    glyphColumns[126 - 33]? = some [0x08, 0x04, 0x08, 0x10, 0x08] ∧ t.comp.output = .black ∧ t.comp.backlight = 0 ∧
    t.cmd.origins.get 0 = .supervisor ∧ (∀ i, i ≠ 0 → t.cmd.origins.get i = .operator) ∧
    t.cmd.address = 0 ∧ t.cmd.attention = 0 ∧ t.cmd.intervalCount = 0

/-- R125: the Frame Timer after power-on reset. -/
def Obligations.PowerOnResetTimer : Prop :=
  ∀ s : State, ∃ t, exec .powerOnReset s = .next t ∧
    t.timer.setup.geo = ⟨0, 0, 1920, 1080⟩ ∧ t.timer.setup.v = 1125 ∧ t.timer.setup.o = 0 ∧
    t.timer.setup.holdoverLimit = 120 ∧ t.timer.setup.startTimeout = 250 ∧ t.timer.setup.statusInterval = 32 ∧
    (∀ k : EventKind, kindIn t.timer.setup.eventMask k = true) ∧ t.timer.setup.cueCapacity = 16 ∧
    t.timer.setup.lookAhead = 600 ∧ t.timer.setup.background = ⟨0, 0, 0⟩ ∧ t.timer.setup.flash = 4 ∧
    t.timer.setup.backlight = 255 ∧ t.cmd.address = 0 ∧
    t.timer.pendSetup = none ∧
    t.timer.lock = .free ∧ t.timer.good = 0 ∧ t.timer.bad = 0 ∧ t.timer.missed = 0 ∧ t.timer.lastPhase = 0 ∧
    t.timer.wallN = 0 ∧ t.timer.nextN = 0 ∧ t.timer.syncNoted = false ∧
    t.timer.curFlags = 0 ∧ t.timer.prevFlags = 0 ∧ t.timer.pendFlags = 0 ∧
    t.timer.slip = 0 ∧ t.timer.startCount = 0 ∧ t.timer.gate = .gated ∧
    t.timer.lineCount = 0 ∧ t.timer.trim = 0 ∧ t.timer.frameLen = 1125 ∧
    kindIn t.cmd.attention .lockChange = false

/-- R140: the cue queue and the trigger units after power-on reset; a unit with flag select 0 and no pending strobe does not
act. -/
def Obligations.PowerOnResetCues : Prop :=
  (∀ s : State, ∃ t, exec .powerOnReset s = .next t ∧
    t.cues.queue = [] ∧ t.timer.setup.cueCapacity = 16 ∧ t.timer.setup.lookAhead = 600 ∧
    (∀ i, (t.cues.triggers.get i).flagSelect = 0 ∧ (t.cues.triggers.get i).invert = false ∧
      (t.cues.triggers.get i).edge = .rising ∧ (t.cues.triggers.get i).action = .raise ∧
      (t.cues.triggers.get i).window = 0 ∧ t.cues.strobes.get i = false) ∧
    t.timer.curFlags = 0 ∧ t.timer.prevFlags = 0 ∧ t.timer.pendFlags = 0) ∧
  (∀ (k : SceneWork) (u : Trigger) (prev cur : BitVec 32), u.flagSelect = 0 → k.unitActs u false prev cur = k)

/-- R153: the Ring Port after power-on reset, at the end of it, at the start of a tile reset, and at the end of that;
`signalHeld` says that the signal has been present throughout the tile reset. Every other effect of the two ends: a panel
frame begins at line 0 with trim 0 (R113), and the rest of the tile is as it was. -/
def Obligations.RingAfterResets : Prop :=
  (∀ s : State, ∃ t, exec .powerOnReset s = .next t ∧ t.ring.phase = .powerOnReset ∧
    t.ring.link = .down ∧ t.ring.runCount = 0 ∧ t.ring.replies = [] ∧ t.ring.slot = none ∧ t.ring.life = 0 ∧
    t.ring.cellsReceived = 0 ∧ t.ring.checkErrors = 0 ∧ t.ring.alignLosses = 0 ∧ t.ring.controlTaken = 0 ∧
    t.ring.repliesDropped = 0) ∧
  (∀ s : State, s.ring.phase = .powerOnReset → s.ring.link = .down → s.ring.runCount = 0 →
    ∃ t, exec .powerOnResetEnd s = .next t ∧ t.ring.phase = .running ∧
      t.timer = { s.timer with lineCount := 0, lineZeroDue := true, trim := 0, frameLen := s.timer.setup.v } ∧
      PictureKept s t ∧
      (s.ring.signal = true → Latched .linkChange s t ∧
        t.ring = { s.ring with phase := .running, link := .aligning, slot := t.ring.slot }) ∧
      (s.ring.signal = false → t.cmd = s.cmd ∧ t.ring = { s.ring with phase := .running })) ∧
  (∀ (s : State) (originator sequence : Byte), ∃ t, t = s.startTileReset originator sequence ∧
    t.ring.replies = [] ∧ t.ring.slot = none ∧ t.ring.cellsReceived = 0 ∧ t.ring.checkErrors = 0 ∧
    t.ring.alignLosses = 0 ∧ t.ring.controlTaken = 0 ∧ t.ring.repliesDropped = 0 ∧ t.ring.life = s.ring.life ∧
    t.ring.link = s.ring.link ∧ t.ring.signal = s.ring.signal ∧ t.ring.signalHeld = s.ring.signal) ∧
  (∀ s : State, s.ring.phase = .tileReset →
    exec .signalLost s = .next { s with ring := { s.ring with signal := false, signalHeld := false } } ∧
    exec .signalPresent s = .next { s with ring := { s.ring with signal := true } }) ∧
  (∀ s : State, s.ring.phase = .tileReset → s.ring.replies.length < 8 →
    ∃ t, exec .tileResetEnd s = .next t ∧ t.ring.phase = .running ∧ t.ring.runCount = 0 ∧
      t.ring.link = (if s.ring.link = .up ∧ s.ring.signal = true ∧ s.ring.signalHeld = true then .up
        else if s.ring.signal = true then .aligning else .down) ∧
      (t.ring.link = s.ring.link → t.cmd = s.cmd ∧ t.ring.slot = s.ring.slot ∧
        t.ring.alignLosses = s.ring.alignLosses) ∧
      (t.ring.link ≠ s.ring.link → Latched .linkChange s t ∧
        t.ring.alignLosses =
          if s.ring.link = .up then min 65535 (s.ring.alignLosses + 1) else s.ring.alignLosses) ∧
      t.ring.life = s.ring.life ∧ t.ring.outbound = s.ring.outbound ∧
      t.timer = { s.timer with lineCount := 0, lineZeroDue := true, trim := 0, frameLen := s.timer.setup.v } ∧
      PictureKept s t)

/-- R163: at the end of the tile reset sequence the TILE_RESET reply, OK, is offered to the queue: a REPLY cell (kind 4) with
the tile address, the originator and the sequence of the command, command code 17, result 0, count 0. Outside of a reset the
two ends of reset do nothing (log 17). -/
def Obligations.TileResetReplyAtEnd : Prop :=
  (∀ (s : State) (originator sequence : Byte), s.ring.phase = .tileReset →
    s.ring.resetReply = some (originator, sequence) → s.ring.replies = [] →
    ∃ t body, exec .tileResetEnd s = .next t ∧ t.ring.replies = [body] ∧ t.ring.resetReply = none ∧
      body.length = 254 ∧
      body.take 7 = [4, BitVec.ofNat 8 s.cmd.address, originator, sequence, 17, 0, 0] ∧
      ∀ i, 7 ≤ i → byteAt body i = 0) ∧
  (∀ s : State, s.ring.phase = .running → exec .tileResetEnd s = .next s ∧ exec .powerOnResetEnd s = .next s)

/-- R163 with R25, R61, R95, R98, R126, R141, R153: a good TILE_RESET cell for this tile from a SUPERVISOR, in UP, starts the
tile reset sequence: bypass, emptied queues, and each block at its values. That frame memory keeps its bytes is the model's
choice (log 8). -/
def Obligations.TileResetStart : Prop :=
  ∀ (s : State) (c : Cell) (placeFirst : Bool), Cell.Whole c → s.ring.phase = .running → s.ring.link = .up →
    cellGood c = true → cellKind c = .control →
    ((controlOf c).destination = 0 ∨ (controlOf c).destination = s.cmd.address) →
    (controlOf c).command = 17 → s.classOf (controlOf c).originator = .supervisor →
    ∃ t, exec (.cellReceived c placeFirst) s = .next t ∧
      t.ring.phase = .tileReset ∧ t.ring.replies = [] ∧ t.ring.slot = none ∧
      t.ring.resetReply = some ((controlOf c).originator, (controlOf c).sequence) ∧
      t.cmd = { s.cmd with attention := 0, intervalCount := 0 } ∧
      t.timer.setup = s.timer.setup ∧ t.timer.pendSetup = none ∧ t.timer.lock = .free ∧ t.timer.good = 0 ∧
      t.timer.bad = 0 ∧ t.timer.missed = 0 ∧ t.timer.lastPhase = 0 ∧ t.timer.wallN = 0 ∧ t.timer.nextN = 0 ∧
      t.timer.syncNoted = false ∧ t.timer.curFlags = 0 ∧ t.timer.prevFlags = 0 ∧ t.timer.pendFlags = 0 ∧
      t.timer.slip = 0 ∧ t.timer.startCount = 0 ∧ t.timer.gate = .gated ∧
      t.scene.shadow = s.scene.shadow ∧ t.scene.shadowList = s.scene.shadowList ∧
      t.scene.presets = s.scene.presets ∧ (∀ n, t.scene.active.get n = WinRec.default) ∧ t.scene.activeList = [] ∧
      t.scene.commitPending = false ∧ t.scene.recallNote = false ∧ (∀ n, t.scene.wins.get n = WinState.cleared) ∧
      t.src.records = s.src.records ∧
      (∀ n, t.src.states.get n =
        { SourceTrack.idle with state := if (s.src.records.get n).enabled = true then .waiting else .off }) ∧
      t.store.free = indices 8192 ∧ (∀ n, t.store.wins.get n = WinStore.empty) ∧ t.store.degraded = 0 ∧
      MemoryKept s t ∧
      t.comp = { s.comp with output := .black, backlight := 0 } ∧
      t.cues.queue = [] ∧ t.cues.triggers = s.cues.triggers ∧ (∀ i, t.cues.strobes.get i = false) ∧
      t.freeIdx = s.freeIdx

/-! ### The ring -/

/-- R143, R152: the receiver's two reports, in every state; and the run count's two limits as commands of their own (log 3):
where a limit is reached the link changes, and elsewhere nothing does. -/
def Obligations.LinkStateChanges : Prop :=
  (∀ s : State, s.ring.phase = .running → s.ring.link = .down →
    ∃ t, exec .signalPresent s = .next t ∧ Latched .linkChange s t ∧ InnerKept s t ∧
      t.ring = { s.ring with signal := true, link := .aligning, runCount := 0, slot := t.ring.slot }) ∧
  (∀ s : State, s.ring.phase ≠ .running ∨ s.ring.link ≠ .down →
    exec .signalPresent s = .next { s with ring := { s.ring with signal := true } }) ∧
  (∀ s : State, s.ring.phase = .running → s.ring.link ≠ .down →
    ∃ t, exec .signalLost s = .next t ∧ Latched .linkChange s t ∧ InnerKept s t ∧
      t.ring = { s.ring with
        signal := false
        signalHeld := false
        link := .down
        runCount := 0
        alignLosses := if s.ring.link = .up then min 65535 (s.ring.alignLosses + 1) else s.ring.alignLosses
        slot := t.ring.slot }) ∧
  (∀ s : State, s.ring.phase ≠ .running ∨ s.ring.link = .down →
    exec .signalLost s = .next { s with ring := { s.ring with signal := false, signalHeld := false } }) ∧
  (∀ s : State, s.ring.phase = .running → s.ring.link = .aligning → 8 ≤ s.ring.runCount →
    ∃ t, exec .linkAligned s = .next t ∧ Latched .linkChange s t ∧ InnerKept s t ∧
      t.ring = { s.ring with link := .up, runCount := 0, slot := t.ring.slot }) ∧
  (∀ s : State, s.ring.link ≠ .aligning ∨ s.ring.runCount < 8 → exec .linkAligned s = .next s) ∧
  (∀ s : State, s.ring.phase = .running → s.ring.link = .up → 4 ≤ s.ring.runCount →
    ∃ t, exec .linkAlignmentLoss s = .next t ∧ Latched .linkChange s t ∧ InnerKept s t ∧
      t.ring = { s.ring with
        link := .aligning
        runCount := 0
        alignLosses := min 65535 (s.ring.alignLosses + 1)
        slot := t.ring.slot }) ∧
  (∀ s : State, s.ring.link ≠ .up ∨ s.ring.runCount < 4 → exec .linkAlignmentLoss s = .next s)

/-- R144, R143, R152: a cell received in ALIGNING, good or bad, reaches no block. Its place opens as the tile's IDLE cell
(which of a place and the same arrival's STATUS cell comes first is the operand, log 4), the counts follow, and the rest of the
Ring Port is as it was. The eighth good cell in a row makes the link UP, with LINK_CHANGE latched. -/
def Obligations.AligningCellsBecomeIdle : Prop :=
  ∀ (s : State) (c : Cell) (placeFirst : Bool), Cell.Whole c → s.ring.phase = .running → s.ring.link = .aligning →
    ∃ (t u : State) (run errors : Nat), exec (.cellReceived c placeFirst) s = .next t ∧
      errors = (if cellGood c = true then s.ring.checkErrors else min 65535 (s.ring.checkErrors + 1)) ∧
      run = (if cellGood c = true then s.ring.runCount + 1 else 0) ∧
      u = { s with ring := { s.ring.opened idleCell placeFirst with checkErrors := errors, runCount := run } } ∧
      (run < 8 → t = u) ∧
      (8 ≤ run → Latched .linkChange u t ∧ InnerKept s t ∧
        t.ring = { u.ring with link := .up, runCount := 0, slot := t.ring.slot }) ∧
      PlaceOpened s t idleCell placeFirst

/-- R144, R143, R152: a bad cell received in UP is counted, reaches no block and is replaced, and the rest of the Ring Port is as
it was; the fourth in a row makes the link ALIGNING, with LINK_CHANGE latched. -/
def Obligations.BadCellsInUpBecomeIdle : Prop :=
  ∀ (s : State) (c : Cell) (placeFirst : Bool), Cell.Whole c → s.ring.phase = .running → s.ring.link = .up →
    cellGood c = false →
    ∃ t u : State, exec (.cellReceived c placeFirst) s = .next t ∧
      u = { s with ring := { s.ring.opened idleCell placeFirst with
        checkErrors := min 65535 (s.ring.checkErrors + 1)
        runCount := s.ring.runCount + 1 } } ∧
      (s.ring.runCount < 3 → t = u) ∧
      (3 ≤ s.ring.runCount → Latched .linkChange u t ∧ InnerKept s t ∧
        t.ring = { u.ring with
          link := .aligning
          runCount := 0
          alignLosses := min 65535 (s.ring.alignLosses + 1)
          slot := t.ring.slot }) ∧
      PlaceOpened s t idleCell placeFirst

/-- R145, R146, R147, R149, R154, Table 9-2: a good STRIP, SYNC, REPLY or STATUS cell, a CONTROL cell for another tile and a
cell of a kind with no meaning leave unchanged in their own place; an IDLE cell opens a place as it is (log 4). Those that are
handed to no block change the Ring Port alone. A broadcast CONTROL cell other than ENUMERATE leaves unchanged, is counted as
taken, and its command is taken; that it is counted before its command is taken, also where that zeroes the counts, is the
model's choice (log 29). -/
def Obligations.GoodCellsForwarded : Prop :=
  ∀ (s : State) (c : Cell) (placeFirst : Bool), Cell.Whole c → s.ring.phase = .running → s.ring.link = .up →
    cellGood c = true →
    ∃ t, exec (.cellReceived c placeFirst) s = .next t ∧
      ((cellKind c = .strip ∨ cellKind c = .sync) →
        t.ring = { s.ring.passed c with slot := t.ring.slot } ∧ t.ring.place = none ∧
        t.ring.outbound = s.ring.givePlace.outbound ++ [c] ∧ t.ring.link = .up) ∧
      ((cellKind c = .reply ∨ cellKind c = .status ∨ cellKind c = .noMeaning ∨
          (cellKind c = .control ∧ (controlOf c).destination ≠ 0 ∧ (controlOf c).destination ≠ s.cmd.address)) →
        t = { s with ring := s.ring.passed c }) ∧
      (cellKind c = .idle → t = { s with ring := s.ring.opened c placeFirst }) ∧
      (cellKind c = .control → (controlOf c).destination = 0 → (controlOf c).command ≠ 16 →
        t = State.takeCommand
          { s with ring := { s.ring.passed c with controlTaken := min 65535 (s.ring.controlTaken + 1) } }
          (controlOf c))

/-- R146, R154: a good CONTROL cell for this tile's own address, in UP, does not leave: an IDLE place opens for it (whether the
place leaves before the reply is offered is the operand, log 4), the cell is counted as taken, and its command is taken (in
that order, also where the command zeroes the counts: the model's choice, log 29). The
scene and the frame memory keep what the command leaves; that a TILE_RESET keeps frame memory is the model's choice (log 8). -/
def Obligations.AddressedControlConsumed : Prop :=
  ∀ (s : State) (c : Cell) (placeFirst : Bool), Cell.Whole c → s.ring.phase = .running → s.ring.link = .up →
    cellGood c = true → cellKind c = .control → (controlOf c).destination ≠ 0 →
    (controlOf c).destination = s.cmd.address →
    ∃ t, exec (.cellReceived c placeFirst) s = .next t ∧
      t = State.takeCommand
        { s with ring :=
          { s.ring.opened idleCell placeFirst with controlTaken := min 65535 (s.ring.controlTaken + 1) } }
        (controlOf c) ∧
      PlaceOpened s t idleCell placeFirst ∧
      t.scene.active = (if s.startsReset (controlOf c) = true then Table.fill 32 WinRec.default else s.scene.active) ∧
      MemoryKept s t

/-- R147, R162: a good broadcast ENUMERATE from a SUPERVISOR with hop 1..100, in UP: the tile takes the hop as its address and
the cell leaves with its hop raised by one, every other byte of its first 254 as it arrived, and a good check word; the answer is
OK with the old address in the first argument word. One that is refused, DENIED from an OPERATOR and RANGE otherwise, leaves
unchanged, and the address stays. The reply is that of OneReplyPerCommand. -/
def Obligations.EnumerateRaisesHop : Prop :=
  ∀ (s : State) (c : Cell) (placeFirst : Bool) (k : Control), Cell.Whole c → s.ring.phase = .running → s.ring.link = .up →
    cellGood c = true → cellKind c = .control → k = controlOf c → k.destination = 0 → k.command = 16 →
    ∃ (d : Cell) (heard t : State), exec (.cellReceived c placeFirst) s = .next t ∧
      heard = { s with ring := { s.ring.passed d with controlTaken := min 65535 (s.ring.controlTaken + 1) } } ∧
      t = heard.takeCommand k ∧ InnerKept s t ∧ t.cmd.origins = s.cmd.origins ∧
      t.ring.outbound = s.ring.givePlace.outbound ++ [d] ∧
      (s.classOf k.originator = .supervisor → 1 ≤ k.arg1 → k.arg1 ≤ 100 →
        heard.judge k = ({ heard with cmd := { s.cmd with address := k.arg1 } }, ⟨.ok, 0, s.cmd.address, 0, []⟩) ∧
        t.cmd.address = k.arg1 ∧ d.length = 256 ∧ field d 8 2 = k.arg1 + 1 ∧
        (∀ i, i < 254 → i ≠ 8 → i ≠ 9 → byteAt d i = byteAt c i) ∧ cellGood d = true) ∧
      (s.classOf k.originator = .operator ∨ k.arg1 = 0 ∨ 100 < k.arg1 →
        heard.judge k = (heard, ⟨if s.classOf k.originator = .operator then .denied else .range, 0, 0, 0, []⟩) ∧
        t.cmd.address = s.cmd.address ∧ d = c)

/-- R151: in bypass every received cell is sent unchanged, and nothing else of the tile changes; with no inbound signal
nothing is sent. BYPASS_CELL outside of a reset does nothing (log 17). R150: in DOWN the tile's own IDLE cell comes to the
outbound side; that none does in ALIGNING, before the first cell is received, is the model's choice (log 28). R149: the open
place is given to the waiting STATUS cell, which leaves with the life count raised, else to the oldest REPLY cell, else the
IDLE cell leaves as it is. In reset no place is filled, and with no inbound signal the place is not sent (R151; that it is then
dropped is log 4's). -/
def Obligations.BypassAndIdlePlaces : Prop :=
  (∀ (s : State) (c : Cell) (placeFirst : Bool), Cell.Whole c → s.ring.phase ≠ .running →
    ∃ t, exec (.bypassCell c) s = .next t ∧ exec (.cellReceived c placeFirst) s = .next t ∧ AllButRingKept s t ∧
      (s.ring.signal = true →
        t.ring = { s.ring with
          place := none
          outbound := s.ring.outbound ++ (s.ring.place.toList ++ [c]) }) ∧
      (s.ring.signal = false → t = s)) ∧
  (∀ (s : State) (c : Cell), Cell.Whole c → s.ring.phase = .running → exec (.bypassCell c) s = .next s) ∧
  (∀ s : State, s.ring.phase = .running → s.ring.link = .down →
    ∃ t, exec .idleGenerate s = .next t ∧ AllButRingKept s t ∧
      t.ring = { s.ring.givePlace with place := some idleCell }) ∧
  (∀ s : State, s.ring.phase ≠ .running ∨ s.ring.link ≠ .down → exec .idleGenerate s = .next s) ∧
  (∀ (s : State) (idle : Cell), s.ring.phase = .running → s.ring.place = some idle →
    ∃ t, exec .idlePlace s = .next t ∧ AllButRingKept s t ∧
      (∀ body, s.ring.slot = some body →
        t.ring = { s.ring with
          place := none
          slot := none
          life := (s.ring.life + 1) % 256
          outbound := s.ring.outbound ++ [sealCell (body.set 2 (BitVec.ofNat 8 ((s.ring.life + 1) % 256)))] }) ∧
      (∀ body rest, s.ring.slot = none → s.ring.replies = body :: rest →
        t.ring = { s.ring with place := none, replies := rest, outbound := s.ring.outbound ++ [sealCell body] }) ∧
      (s.ring.slot = none → s.ring.replies = [] →
        t.ring = { s.ring with place := none, outbound := s.ring.outbound ++ [idle] })) ∧
  (∀ (s : State) (idle : Cell), s.ring.phase ≠ .running → s.ring.place = some idle →
    exec .idlePlace s =
      .next { s with ring := { s.ring with
        place := none
        outbound := if s.ring.signal = true then s.ring.outbound ++ [idle] else s.ring.outbound } }) ∧
  (∀ s : State, s.ring.place = none → exec .idlePlace s = .next s)

/-- R142: a whole cell is good exactly when the register, run on to the end of byte 255, is 0; and every cell the tile seals
is good. -/
def Obligations.CheckWords : Prop :=
  (∀ c : Cell, Cell.Whole c → (cellGood c = true ↔ checkWord c = 0)) ∧
  (∀ body : List Byte, body.length = 254 → cellGood (sealCell body) = true ∧ Cell.Whole (sealCell body)) ∧
  cellGood idleCell = true

/-! ### Commands -/

/-- R154, R148, R163, Table 11-1: every command that does not start a tile reset yields exactly one reply, when its work is done:
a REPLY cell (kind 4) with the tile's address as it stands then, the originator, the sequence and the command echoed, the
result, the count, the two argument words and the records its rule gives. It goes to the back of the queue; at a full queue it
is discarded, replies dropped rises by one, and REPLIES_DROPPED is latched. A command that starts a tile reset starts it. The
premise, that the stacking lists are those of their tables and so hold 32 entries at most, is the invariant of ListsStayLegal. -/
def Obligations.OneReplyPerCommand : Prop :=
  (∀ (s : State) (c : Control), s.startsReset c = true → s.takeCommand c = s.startTileReset c.originator c.sequence) ∧
  (∀ (s u : State) (c : Control) (a : Answer), ListsLegal s → s.startsReset c = false → s.judge c = (u, a) →
    ∃ body : List Byte, body.length = 254 ∧ u.ring.replies = s.ring.replies ∧
      body = [4, BitVec.ofNat 8 u.cmd.address, c.originator, c.sequence, c.command, BitVec.ofNat 8 a.result.code,
          BitVec.ofNat 8 a.count, 0, BitVec.ofNat 8 (a.arg1 / 256), BitVec.ofNat 8 a.arg1,
          BitVec.ofNat 8 (a.arg2 / 256), BitVec.ofNat 8 a.arg2, 0, 0] ++
        (a.records ++ List.replicate (240 - a.records.length) 0) ∧
      (s.ring.replies.length < 8 →
        s.takeCommand c = { u with ring := { u.ring with replies := s.ring.replies ++ [body] } }) ∧
      (8 ≤ s.ring.replies.length →
        s.takeCommand c = latch .repliesDropped
          { u with ring := { u.ring with repliesDropped := min 65535 (u.ring.repliesDropped + 1) } }))

/-- R154: a command other than WRITE whose result is not OK changes nothing of the tile. R154, R156, Table 11-2: the order of
judging: UNKNOWN of a command code that names no command, and of a table code that names no table where the command takes one;
then DENIED of an OPERATOR's PRESET_SAVE, ENUMERATE and TILE_RESET. R159, R161, R162: RANGE of WRITE_IF of another table or an
index above 31, of PRESET_SAVE above preset 3, CUE_CANCEL of a tag above 255, STROBE above unit 7, the two clears above window
31, and of an ENUMERATE that is addressed or has no hop of 1..100. -/
def Obligations.RefusedCommandChangesNothing : Prop :=
  (∀ (s : State) (c : Control), (s.judge c).2.result ≠ .ok → Command.ofCode c.command.toNat ≠ some .write →
    (s.judge c).1 = s) ∧
  ∀ (s : State) (c : Control) (cls : OrigClass), cls = s.classOf c.originator →
    (c.command = 0 ∨ 17 < c.command.toNat → s.judge c = (s, ⟨.unknown, 0, 0, 0, []⟩)) ∧
    (c.command = 1 ∨ c.command = 2 ∨ c.command = 3 → c.table = 0 ∨ 13 < c.table →
      s.judge c = (s, ⟨.unknown, 0, 0, 0, []⟩)) ∧
    (cls = .operator → c.command = 7 ∨ c.command = 16 ∨ c.command = 17 →
      s.judge c = (s, ⟨.denied, 0, 0, 0, []⟩)) ∧
    (c.command = 3 → (1 ≤ c.table ∧ c.table ≤ 13 ∧ c.table ≠ 3 ∧ c.table ≠ 4) ∨
        ((c.table = 3 ∨ c.table = 4) ∧ 31 < c.index) → s.judge c = (s, ⟨.range, 0, 0, 0, []⟩)) ∧
    (cls = .supervisor → c.command = 7 → 3 < c.index → s.judge c = (s, ⟨.range, 0, 0, 0, []⟩)) ∧
    (c.command = 10 → 255 < c.arg1 → s.judge c = (s, ⟨.range, 0, 0, 0, []⟩)) ∧
    (c.command = 12 → 7 < c.index → s.judge c = (s, ⟨.range, 0, 0, 0, []⟩)) ∧
    (c.command = 13 ∨ c.command = 14 → 31 < c.index → s.judge c = (s, ⟨.range, 0, 0, 0, []⟩)) ∧
    (cls = .supervisor → c.command = 16 → c.destination ≠ 0 ∨ c.arg1 = 0 ∨ 100 < c.arg1 →
      s.judge c = (s, ⟨.range, 0, 0, 0, []⟩))

/-- R156, R3, R8, R16, R17: whatever an OPERATOR commands, every pinned shadow record, the pinned tier of the shadow list, the
presets, the originator table, the glyph table, the trigger table, the setup and its pending copy, and the tile address are
as they were, no record becomes pinned, and no reset starts. The premise, that lists and presets are sound, is the invariant
of ListsStayLegal. -/
def Obligations.OperatorsKeepOut : Prop :=
  ∀ (s : State) (c : Control), ListsLegal s → s.classOf c.originator = .operator →
    (∀ n, (s.scene.shadow.get n).pinned = true →
      (s.takeCommand c).scene.shadow.get n = s.scene.shadow.get n) ∧
    (∀ n, ((s.takeCommand c).scene.shadow.get n).pinned = true → (s.scene.shadow.get n).pinned = true) ∧
    tierOf (s.takeCommand c).scene.shadow true (s.takeCommand c).scene.shadowList =
      tierOf s.scene.shadow true s.scene.shadowList ∧
    (s.takeCommand c).scene.presets = s.scene.presets ∧ (s.takeCommand c).cmd.origins = s.cmd.origins ∧
    (s.takeCommand c).comp = s.comp ∧ (s.takeCommand c).cues.triggers = s.cues.triggers ∧
    (s.takeCommand c).timer.setup = s.timer.setup ∧ (s.takeCommand c).timer.pendSetup = s.timer.pendSetup ∧
    (s.takeCommand c).cmd.address = s.cmd.address ∧ (s.takeCommand c).ring.phase = s.ring.phase

/-- R155, R157, Table 11-5: the sizes of the records. R6: the records of STACK, with its three more items, and of ACTIVE_STACK; R59:
of SOURCE_STATE (where no tag is held the tag byte is a free value, log 9); R12, R32, R93: of WINDOW_STATE (for a window that is
not visible, and for its pages held, the model's reading, log 22; the tag byte of a buffer that is not WRITING is a free value,
log 9); R121, R152: of COUNTERS (that the frame length is then L + 1 where a frame is past its new length is the model's
choice, log 31). R154, R157: READ of a table that a code names, from whatever originator, is the read of that table by the
command's index and count. That the bits of byte 35 of STACK and of byte 34 of WINDOW_STATE which Table 11-5 does not name are 0
is the model's choice (log 32). READ of an index in range answers OK with the records from the index on, wrapping, as many as asked
up to a payload's worth (CUES: up to the end of the queue); out of range it is refused RANGE, with count 0 too (that RANGE comes
before R157's OK for count 0 is the model's choice, log 13). It changes nothing of the tile (the counter of free bytes is the
model's own, log 9). -/
def Obligations.ReadReturnsRecords : Prop :=
  (∀ (s : State) (c : Control) (t : TableId), c.command = 1 → TableId.ofCode c.table = some t →
    s.judge c = s.read t c.index c.count) ∧
  (∀ (s : State) (t : TableId) (i : Nat), ListsLegal s → t ≠ .cues → (s.record t i).length = t.recordSize) ∧
  [TableId.setup, .origins, .sources, .windows, .active, .stack, .activeStack, .glyphs, .triggers, .sourceState,
    .windowState, .cues, .counters].map (fun t => (t.records, t.recordSize)) =
    [(1, 30), (16, 1), (32, 12), (32, 80), (32, 80), (1, 36), (1, 36), (128, 32), (8, 8), (32, 24), (32, 40), (64, 12), (1, 28)] ∧
  (∀ (s : State) (r : List Byte), ListsLegal s → r = s.record .stack 0 → ListRecord s.scene.shadowList r ∧
    byteAt r 33 = yesNo s.scene.commitPending ∧ byteAt r 34 = yesNo s.scene.recallNote ∧ (byteAt r 35).toNat < 16 ∧
    ∀ p : Fin 4, (byteAt r 35).getLsbD p.val = (s.scene.presets.get p).valid) ∧
  (∀ (s : State) (r : List Byte), ListsLegal s → r = s.record .activeStack 0 → ListRecord s.scene.activeList r ∧
    byteAt r 33 = 0 ∧ byteAt r 34 = 0 ∧ byteAt r 35 = 0) ∧
  (∀ (s : State) (n : Fin 32) (r : List Byte) (k : SourceTrack), r = s.record .sourceState n.val → k = s.src.states.get n →
    (byteAt r 0).toNat = (match k.state with
      | .off => 0
      | .waiting => 1
      | .live => 2
      | .stalled => 3
      | .lost => 4) ∧
    byteAt r 1 = yesNo k.frameOpen ∧ byteAt r 2 = yesNo k.tag.isSome ∧ (∀ tag, k.tag = some tag → byteAt r 3 = tag) ∧
    field r 4 4 = k.accepted % 2 ^ 32 ∧ field r 8 2 = k.lastLine % 65536 ∧ (byteAt r 10).toNat = k.lastSegment % 256 ∧
    (byteAt r 11).toNat = k.lastStarts % 256 ∧ field r 12 2 = k.sinceStart % 65536 ∧
    field r 14 2 = k.startPhase % 65536 ∧ field r 16 2 = k.completed % 65536 ∧ field r 18 2 = k.rejected % 65536 ∧
    field r 20 2 = k.discarded % 65536 ∧ field r 22 2 = k.sequence % 65536) ∧
  (∀ (s : State) (n : Fin 32) (r : List Byte) (w : WinStore) (a : WinState) (v : VisRect) (listed : List Buffer),
    r = s.record .windowState n.val → w = s.store.wins.get n → a = s.scene.wins.get n →
    v = (visibleRect s.timer.setup.geo (s.scene.active.get n)).getD ⟨0, 0, 0, 0⟩ →
    listed = w.bufs.filter (fun b => decide (b.role = .showing)) ++ (w.bufs.filter (fun b => b.role.isFilling) ++
      (w.bufs.filter (fun b => decide (b.role = .ready)) ++ w.bufs.filter (fun b => decide (b.role = .spare)))) →
    field r 0 2 = v.x0 % 65536 ∧ field r 2 2 = v.y0 % 65536 ∧ field r 4 2 = v.w % 65536 ∧ field r 6 2 = v.h % 65536 ∧
    field r 8 2 = pagesPerBuffer v % 65536 ∧ field r 10 2 = w.bufs.length * pagesPerBuffer v % 65536 ∧
    (byteAt r 12).toNat = w.bufs.length % 256 ∧ (∀ k, w.feeding = some k → (byteAt r 13).toNat = k.val) ∧
    (w.feeding = none → byteAt r 13 = 255) ∧
    (∀ (i : Nat) (b : Buffer), i < 3 → listed[i]? = some b →
      (byteAt r (14 + 4 * i)).toNat = (match b.role with
        | .filling _ => 1
        | .ready => 2
        | .showing => 3
        | .spare => 4) ∧
      (byteAt r (15 + 4 * i)).toNat = (match b.role with
        | .filling .armed => 1
        | .filling (.writing _) => 2
        | .ready | .showing | .spare => 0) ∧
      (∀ tag, b.role = .filling (.writing tag) → byteAt r (16 + 4 * i) = tag) ∧
      byteAt r (17 + 4 * i) = yesNo b.mark) ∧
    (∀ j, 4 * listed.length ≤ j → j < 12 → byteAt r (14 + j) = 0) ∧
    field r 26 2 = w.shown % 65536 ∧ field r 28 2 = w.dropped % 65536 ∧ field r 30 2 = w.repeated % 65536 ∧
    (byteAt r 32).toNat = (match a.blank with
      | .off => 0
      | .level => 1
      | .latched => 2) ∧
    (byteAt r 33).toNat = (match a.highlight with
      | .off => 0
      | .level => 1
      | .latched => 2) ∧
    (byteAt r 34).getLsbD 1 = a.blankClear ∧ (byteAt r 34).getLsbD 0 = a.highlightClear ∧ (byteAt r 34).toNat < 4 ∧
    (∀ k, a.tourSource = some k → (byteAt r 35).toNat = k.val) ∧ (a.tourSource = none → byteAt r 35 = 255) ∧
    field r 36 4 = a.epoch.toNat) ∧
  (∀ (s : State) (r : List Byte) (g : Ring) (k : Timer), r = s.record .counters 0 → g = s.ring → k = s.timer →
    (byteAt r 0).toNat = (match g.link with
      | .down => 0
      | .aligning => 1
      | .up => 2) ∧
    (byteAt r 1).toNat = g.runCount % 256 ∧ field r 2 2 = g.cellsReceived % 65536 ∧
    field r 4 2 = g.checkErrors % 65536 ∧ field r 6 2 = g.alignLosses % 65536 ∧ field r 8 2 = g.controlTaken % 65536 ∧
    field r 10 2 = g.repliesDropped % 65536 ∧
    (byteAt r 12).toNat = (match k.lock with
      | .free => 0
      | .acquire => 1
      | .locked => 2
      | .holdover => 3) ∧
    byteAt r 13 = yesNo k.pendSetup.isSome ∧ (field r 14 2 : Int) = k.lastPhase % 65536 ∧
    ((byteAt r 16).toNat : Int) = k.trim % 256 ∧ (byteAt r 17).toNat = k.good % 256 ∧ (byteAt r 18).toNat = k.bad % 256 ∧
    byteAt r 19 = 0 ∧ field r 20 2 = k.frameLen % 65536 ∧ field r 22 2 = k.missed % 65536 ∧
    field r 24 2 = k.startCount % 65536 ∧ field r 26 2 = k.slip % 65536) ∧
  ∀ (s : State) (t : TableId) (index count : Nat),
    (t.records ≤ index → s.read t index count = (s, Answer.plain .range)) ∧
    (index < t.records →
      (s.read t index count).1 = { s with freeIdx := s.freeIdx + 1 } ∧ (s.read t index count).2.result = .ok ∧
      (t ≠ .cues → (s.read t index count).2.count = min count (240 / t.recordSize) ∧
        (s.read t index count).2.records =
          (List.range (min count (240 / t.recordSize))).flatMap fun j => s.record t ((index + j) % t.records)) ∧
      (t = .cues →
        (s.read t index count).2.count = min (min count 20) (s.cues.queue.length - index) ∧
        (s.read t index count).2.records =
          ((s.cues.queue.drop index).take (min count 20)).flatMap Cue.pack))

/-- R167, R6, R46, R123, R156, R111, R135, R127: the record of a table reads back the bytes that were written, with ignored
positions 0 (the mask bits that name no kind too, log 24): a window and a source record with the revision as it stands, SETUP (the
pending copy while one is pending, R28) with the address in force, TRIGGERS with the pending strobe. R156: ORIGINS. -/
def Obligations.RecordsReadBack : Prop :=
  (∀ (s : State) (n : Fin 32) (bytes : List Byte) (r : WinRec) (v i : Nat) (b : Byte), bytes.length = 80 →
    WinRec.unpack bytes = some r → i < 80 →
    b = (if i = 0 then byteAt bytes 0 &&& 0xFC
      else if i = 5 then BitVec.ofNat 8 (v / 256)
      else if i = 6 then BitVec.ofNat 8 v
      else if i = 28 ∨ i = 32 ∨ i = 36 ∨ i = 40 ∨ i = 44 ∨ i = 48 then byteAt bytes i &&& 0x3F
      else byteAt bytes i) →
    (s.scene.shadow.get n = { r with revision := v } → byteAt (s.record .windows n.val) i = b) ∧
    (s.scene.active.get n = { r with revision := v } → byteAt (s.record .active n.val) i = b)) ∧
  (∀ (s : State) (n : Fin 32) (bytes : List Byte) (r : SourceRec) (v i : Nat), bytes.length = 12 →
    SourceRec.unpack bytes = some r → i < 12 → s.src.records.get n = { r with revision := v } →
    byteAt (s.record .sources n.val) i =
      if i = 10 then BitVec.ofNat 8 (v / 256) else if i = 11 then BitVec.ofNat 8 v else byteAt bytes i) ∧
  (∀ (s : State) (bytes : List Byte) (i : Nat), bytes.length = 30 → i < 30 →
    s.timer.pendSetup = some (Setup.unpack bytes) ∨ (s.timer.pendSetup = none ∧ s.timer.setup = Setup.unpack bytes) →
    byteAt (s.record .setup 0) i =
      if i = 0 then BitVec.ofNat 8 s.cmd.address
      else if i = 5 then 0
      else if i = 24 then byteAt bytes i &&& 0x0F
      else if i = 26 then byteAt bytes i &&& 0x3F
      else byteAt bytes i) ∧
  (∀ (s : State) (i : Fin 16), s.record .origins i.val = [if s.cmd.origins.get i = .supervisor then 1 else 0]) ∧
  (∀ (s : State) (n : Fin 128) (bytes : List Byte) (i : Nat), bytes.length = 32 → i < 32 →
    s.comp.glyphs.get n = Table.ofFn (fun row => BitVec.ofNat 12 (field bytes (2 * row.val) 2 / 16)) →
    byteAt (s.record .glyphs n.val) i = if i % 2 = 1 then byteAt bytes i &&& 0xF0 else byteAt bytes i) ∧
  (∀ (s : State) (n : Fin 8) (bytes : List Byte) (i : Nat), bytes.length = 8 → i < 8 →
    Trigger.unpack bytes = some (s.cues.triggers.get n) →
    byteAt (s.record .triggers n.val) i =
      if i = 6 then yesNo (s.cues.strobes.get n) else if i = 7 then 0 else byteAt bytes i) ∧
  (∀ (s : State) (n : Nat) (bytes : List Byte) (c : Cue) (i : Nat), bytes.length = 12 → i < 12 →
    Cue.unpack bytes = some c → s.cues.queue[n]? = some c →
    byteAt (s.record .cues n) i = if i = 5 then 0 else byteAt bytes i)

/-- R167, Tables 11-3 to 11-5: the fields of a delivered record by their bytes, and the codes without a meaning, which fail. R2 and
Table 1-2, R46, R27, R106, R123, R130, R165, R135: when a record is legal. -/
def Obligations.RecordChecks : Prop :=
  (∀ (l : List Byte) (i w : Nat), w = field l i 4 →
    colourAt l i = ⟨BitVec.ofNat 10 (w / 2 ^ 20), BitVec.ofNat 10 (w / 2 ^ 10), BitVec.ofNat 10 w⟩) ∧
  (∀ l : List Byte, (WinRec.unpack l = none ↔ (4 < (byteAt l 1).toNat ∨ 31 < (byteAt l 2).toNat)) ∧
    ∀ (r : WinRec) (crop tour text : Nat), WinRec.unpack l = some r → crop = field l 17 6 → tour = field l 23 5 →
      text = field l 52 28 →
      r.enabled = (byteAt l 0).getLsbD 7 ∧ r.pinned = (byteAt l 0).getLsbD 6 ∧
      r.loss = (if (byteAt l 0).getLsbD 5 = true then .fill else .hold) ∧
      r.capPlace = (if (byteAt l 0).getLsbD 4 = true then .bottom else .top) ∧
      r.capSize = (byteAt l 0).toNat / 4 % 4 ∧
      [DisplayMode.live, .freeze, .solid, .pattern, .hidden][(byteAt l 1).toNat]? = some r.mode ∧
      r.source.val = (byteAt l 2).toNat ∧ r.tourLen = (byteAt l 3).toNat / 16 ∧ r.borderWidth = (byteAt l 3).toNat % 16 ∧
      r.capLen = (byteAt l 4).toNat ∧ r.dwell = field l 7 2 ∧ r.x = field l 9 2 ∧ r.y = field l 11 2 ∧ r.w = field l 13 2 ∧
      r.h = field l 15 2 ∧ r.cx = crop / 2 ^ 36 % 4096 ∧ r.cy = crop / 2 ^ 24 % 4096 ∧ r.cw = crop / 2 ^ 12 % 4096 + 1 ∧
      r.ch = crop % 4096 + 1 ∧ (∀ i : Fin 8, (r.tourList.get i).val = tour / 2 ^ (5 * (7 - i.val)) % 32) ∧
      r.fill = colourAt l 28 ∧ r.border = colourAt l 32 ∧ r.stale = colourAt l 36 ∧ r.alarm = colourAt l 40 ∧
      r.capFg = colourAt l 44 ∧ r.capBg = colourAt l 48 ∧
      ∀ i : Fin 32, (r.capText.get i).val = text / 2 ^ (7 * (31 - i.val)) % 128) ∧
  (∀ r : WinRec, r.ok = true ↔
    (r.tourLen ≤ 8 ∧ 16 ≤ r.w ∧ r.w ≤ 32768 ∧ 16 ≤ r.h ∧ r.h ≤ 16384 ∧ r.x + r.w ≤ 32768 ∧ r.y + r.h ≤ 16384 ∧
      1 ≤ r.cw ∧ r.cw ≤ 4096 ∧ 1 ≤ r.ch ∧ r.ch ≤ 4096 ∧ r.cx + r.cw ≤ 4096 ∧ r.cy + r.ch ≤ 4096 ∧
      r.cw ≤ 8 * r.w ∧ r.ch ≤ 8 * r.h ∧ r.borderWidth ≤ 15 ∧ (r.capSize = 1 ∨ r.capSize = 2) ∧ r.capLen ≤ 32)) ∧
  (∀ l : List Byte, (SourceRec.unpack l = none ↔ (1 < (byteAt l 0).toNat ∨ 2 < (byteAt l 1).toNat)) ∧
    ∀ r : SourceRec, SourceRec.unpack l = some r → byteAt l 0 = yesNo r.enabled ∧
      [PixFormat.mono8, .rgb8, .rgb10][(byteAt l 1).toNat]? = some r.format ∧ r.sw = field l 2 2 ∧ r.sh = field l 4 2 ∧
      r.stallLimit = (byteAt l 6).toNat ∧ r.missingLimit = (byteAt l 7).toNat ∧ r.lossLimit = field l 8 2) ∧
  (∀ r : SourceRec, r.ok = true ↔
    (16 ≤ r.sw ∧ r.sw ≤ 4096 ∧ 16 ≤ r.sh ∧ r.sh ≤ 4096 ∧ 1 ≤ r.stallLimit ∧ r.stallLimit ≤ 255 ∧
      r.stallLimit < r.lossLimit ∧ r.missingLimit ≤ 255)) ∧
  (∀ (l : List Byte) (r : Setup), r = Setup.unpack l → r.statusInterval = (byteAt l 1).toNat ∧
    r.cueCapacity = (byteAt l 2).toNat ∧ r.flash = (byteAt l 3).toNat ∧ r.backlight = (byteAt l 4).toNat ∧
    r.geo = ⟨field l 6 2, field l 8 2, field l 10 2, field l 12 2⟩ ∧ r.v = field l 14 2 ∧ r.o = field l 16 2 ∧
    r.holdoverLimit = field l 18 2 ∧ r.startTimeout = field l 20 2 ∧ r.lookAhead = field l 22 2 ∧
    (∀ k : EventKind, kindIn r.eventMask k = (field l 24 2).testBit (k.priority - 1)) ∧ r.background = colourAt l 26) ∧
  (∀ (r : Setup) (cues : Nat), r.ok cues = true ↔
    (r.geo.ox ≤ 32767 ∧ r.geo.ox + r.geo.pw ≤ 32768 ∧ r.geo.oy ≤ 16383 ∧ r.geo.oy + r.geo.ph ≤ 16384 ∧
      64 ≤ r.geo.pw ∧ r.geo.pw ≤ 4096 ∧ 64 ≤ r.geo.ph ∧ r.geo.ph ≤ 4079 ∧ r.geo.ph + 16 ≤ r.v ∧ r.v ≤ 4095 ∧ r.o < r.v ∧
      1 ≤ r.holdoverLimit ∧ r.holdoverLimit ≤ 1000 ∧ r.startTimeout ≤ 1000 ∧ r.backlight ≤ 255 ∧ 1 ≤ r.flash ∧
      r.flash ≤ 6 ∧ (r.cueCapacity = 8 ∨ r.cueCapacity = 16 ∨ r.cueCapacity = 32 ∨ r.cueCapacity = 64) ∧
      cues ≤ r.cueCapacity ∧ 1 ≤ r.lookAhead ∧ r.lookAhead ≤ 16384 ∧ 1 ≤ r.statusInterval ∧ r.statusInterval ≤ 255)) ∧
  (∀ l : List Byte, (Trigger.unpack l = none ↔
      (1 < (byteAt l 1).toNat ∨ 3 < (byteAt l 2).toNat ∨ 5 < (byteAt l 3).toNat)) ∧
    ∀ r : Trigger, Trigger.unpack l = some r → r.flagSelect = (byteAt l 0).toNat ∧ byteAt l 1 = yesNo r.invert ∧
      [EdgeMode.level, .rising, .falling, .any][(byteAt l 2).toNat]? = some r.edge ∧
      [Action.commit, .recall, .source, .raise, .blank, .highlight][(byteAt l 3).toNat]? = some r.action ∧
      r.window = byteAt l 4 ∧ r.param = byteAt l 5) ∧
  (∀ r : Trigger, r.ok = true ↔
    (r.flagSelect ≤ 33 ∧ r.action ≠ .commit ∧ (r.action ≠ .recall → r.window.toNat ≤ 31) ∧
      (r.action = .source → r.param.toNat ≤ 31) ∧ (r.action = .recall → r.param.toNat ≤ 3 ∧ r.edge ≠ .level)))

/-- R165, R166, Tables 10-3 and 11-1: the bytes of a STATUS cell before its check word: kind 5, the address, the life count (0 until
the cell leaves), the lock state and the gate, the first event, the wall frame number, the attention set, the free pages, the
degraded windows, the cue queue length, replies dropped, and 0 beyond; the first event is 0 for an empty set, else the
priority of the present kind that stands highest. R164, R165: what latching a kind does, what EVENT_ACK removes, and the interval build: where the interval count has
reached the status interval in force, a STATUS cell of the tile as it stands is built and the count returns to 0 (as a
command of its own, log 3); elsewhere nothing changes. -/
def Obligations.LatchesAndStatusCells : Prop :=
  (∀ (s : State) (n : Nat), n = s.timer.wallN.toNat → ∃ lock gate first : Nat,
    statusBody s = [5, BitVec.ofNat 8 s.cmd.address, 0, BitVec.ofNat 8 lock, BitVec.ofNat 8 gate, BitVec.ofNat 8 first,
        BitVec.ofNat 8 (n / 16777216), BitVec.ofNat 8 (n / 65536), BitVec.ofNat 8 (n / 256), BitVec.ofNat 8 n,
        BitVec.ofNat 8 (s.cmd.attention.toNat / 256), BitVec.ofNat 8 s.cmd.attention.toNat,
        BitVec.ofNat 8 (s.store.free.length / 256), BitVec.ofNat 8 s.store.free.length,
        BitVec.ofNat 8 s.store.degraded, BitVec.ofNat 8 s.cues.queue.length,
        BitVec.ofNat 8 (s.ring.repliesDropped / 256), BitVec.ofNat 8 s.ring.repliesDropped] ++ List.replicate 236 0 ∧
    lock = (match s.timer.lock with
      | .free => 0
      | .acquire => 1
      | .locked => 2
      | .holdover => 3) ∧
    gate = (match s.timer.gate with
      | .gated => 0
      | .opened => 1) ∧
    (s.cmd.attention = 0 → first = 0) ∧
    ∀ k : EventKind, kindIn s.cmd.attention k = true →
      (∀ j : EventKind, j.priority < k.priority → kindIn s.cmd.attention j = false) → first = k.priority) ∧
  [EventKind.linkChange, .lockChange, .sourceLost, .nomem, .repliesDropped, .slip, .cueLate, .sourceStalled, .sourceLive,
    .gateOpen, .setupTaken, .commitTaken].map EventKind.priority = [1, 2, 3, 4, 5, 6, 7, 8, 9, 10, 11, 12] ∧
  (∀ (k : EventKind) (s : State), Latched k s (latch k s) ∧ InnerKept s (latch k s) ∧ RingKeptButSlot s (latch k s) ∧
    kindIn (latch k s).cmd.attention k = true ∧
    ∀ j, j ≠ k → kindIn (latch k s).cmd.attention j = kindIn s.cmd.attention j) ∧
  (∀ (s : State) (c : Control), c.command = 15 →
    (s.judge c).2.result = .ok ∧ (s.judge c).2.arg1 = (s.judge c).1.cmd.attention.toNat ∧
    (∀ k : EventKind, kindIn (s.judge c).1.cmd.attention k =
      (kindIn s.cmd.attention k && !(c.arg1.testBit (k.priority - 1)))) ∧
    CommandKept s (s.judge c).1 ∧ (s.judge c).1.ring = s.ring ∧ InnerKept s (s.judge c).1) ∧
  (∀ s : State, s.ring.phase = .running → s.timer.setup.statusInterval ≤ s.cmd.intervalCount →
    ∃ t, exec .statusInterval s = .next t ∧ t.cmd = { s.cmd with intervalCount := 0 } ∧
      t.ring = { s.ring with slot := some (statusBody t) } ∧ InnerKept s t) ∧
  (∀ s : State, s.ring.phase ≠ .running ∨ s.cmd.intervalCount < s.timer.setup.statusInterval →
    exec .statusInterval s = .next s)

/-- R9, R13, R134, R139: COMMIT NEXT, STROBE, BLANK_CLEAR, HIGHLIGHT_CLEAR, CUE_CANCEL and CUE_CLEAR, each with everything
else as it was. -/
def Obligations.FlagCommands : Prop :=
  ∀ (s : State) (c : Control),
    (c.command = 4 → c.index = 0 →
      s.judge c = ({ s with scene := { s.scene with commitPending := true } }, ⟨.ok, 0, 0, 0, []⟩)) ∧
    (∀ i : Fin 8, c.command = 12 → c.index = i.val →
      s.judge c = ({ s with cues := { s.cues with strobes := s.cues.strobes.set i true } }, ⟨.ok, 0, 0, 0, []⟩)) ∧
    (∀ n : Fin 32, c.command = 13 → c.index = n.val →
      s.judge c = ({ s with scene := { s.scene with
        wins := s.scene.wins.set n { s.scene.wins.get n with highlightClear := true } } }, ⟨.ok, 0, 0, 0, []⟩)) ∧
    (∀ n : Fin 32, c.command = 14 → c.index = n.val →
      s.judge c = ({ s with scene := { s.scene with
        wins := s.scene.wins.set n { s.scene.wins.get n with blankClear := true } } }, ⟨.ok, 0, 0, 0, []⟩)) ∧
    (c.command = 10 → c.arg1 ≤ 255 →
      (s.judge c).1 = { s with cues := { s.cues with
        queue := s.cues.queue.filter fun d => decide (d.tag.toNat ≠ c.arg1) } } ∧
      (s.judge c).2.count = s.cues.queue.countP (fun d => decide (d.tag.toNat = c.arg1)) ∧
      ((s.judge c).2.result = .notfound ↔ ∀ d ∈ s.cues.queue, d.tag.toNat ≠ c.arg1)) ∧
    (c.command = 11 →
      s.judge c = ({ s with cues := { s.cues with queue := [] } }, ⟨.ok, s.cues.queue.length, 0, 0, []⟩))

/-- R2, R3, R5, R7, R159: WRITE_IF of WINDOWS, with its checks in their order, and WRITE of one window record: the record is
written with its revision raised, the window enters, leaves or keeps its place in the shadow list, and nothing else of the
tile changes. -/
def Obligations.WindowWrites : Prop :=
  ∀ (s : State) (n : Fin 32) (c : Control) (old : WinRec) (bytes : List Byte) (denied : Prop),
    ListOf s.scene.shadow s.scene.shadowList → c.table = 4 → c.index = n.val → old = s.scene.shadow.get n →
    bytes = c.payload.take 80 →
    (denied ↔ (s.classOf c.originator = .operator ∧
      (old.pinned = true ∨ deliveredPinned bytes ≠ old.pinned))) →
    (c.command = 3 → denied → s.judge c = (s, ⟨.denied, 0, 0, 0, []⟩)) ∧
    (c.command = 3 → ¬denied → old.revision ≠ c.arg1 → s.judge c = (s, ⟨.stale, 0, old.revision, 0, []⟩)) ∧
    (c.command = 3 → ¬denied → old.revision = c.arg1 → (∀ r, WinRec.unpack bytes = some r → r.ok = false) →
      s.judge c = (s, ⟨.range, 0, 0, 0, []⟩)) ∧
    (c.command = 2 → c.count = 1 → denied → s.judge c = (s, ⟨.denied, 0, 0, 0, []⟩)) ∧
    (c.command = 2 → c.count = 1 → ¬denied → (∀ r, WinRec.unpack bytes = some r → r.ok = false) →
      s.judge c = (s, ⟨.range, 0, 0, 0, []⟩)) ∧
    (∀ r, (c.command = 3 ∧ old.revision = c.arg1) ∨ (c.command = 2 ∧ c.count = 1) → ¬denied →
      WinRec.unpack bytes = some r → r.ok = true →
      ∃ t, s.judge c =
          (t, ⟨.ok, 1, if c.command = 3 then (old.revision + 1) % 65536 else 0, 0, []⟩) ∧
        t = { s with scene := { s.scene with shadow := t.scene.shadow, shadowList := t.scene.shadowList } } ∧
        t.scene.shadow.get n = { r with revision := (old.revision + 1) % 65536 } ∧
        (∀ m, m ≠ n → t.scene.shadow.get m = s.scene.shadow.get m) ∧
        (r.enabled = old.enabled → r.pinned = old.pinned → t.scene.shadowList = s.scene.shadowList) ∧
        (r.enabled = false → t.scene.shadowList = s.scene.shadowList.filter fun m => decide (m ≠ n)) ∧
        (r.enabled = true → (old.enabled = false ∨ r.pinned ≠ old.pinned) →
          ∃ front back, t.scene.shadowList = front ++ n :: back ∧
            front ++ back = (s.scene.shadowList.filter fun m => decide (m ≠ n)) ∧
            (r.pinned = true → front = []) ∧
            (r.pinned = false → (∀ m ∈ front, (s.scene.shadow.get m).pinned = true) ∧
              ∀ m ∈ back, (s.scene.shadow.get m).pinned = false)))

/-- R46, R48, R86, R159: WRITE_IF of SOURCES: refused STALE or RANGE, or written: the record with its revision raised, the open
frame abandoned, the source WAITING or OFF, and the buffers of the windows it feeds re-armed, each with its pages and its
picture mark. -/
def Obligations.SourceRewrites : Prop :=
  ∀ (s : State) (n : Fin 32) (c : Control) (old : SourceRec), c.command = 3 → c.table = 3 → c.index = n.val →
    old = s.src.records.get n →
    (old.revision ≠ c.arg1 → s.judge c = (s, ⟨.stale, 0, old.revision, 0, []⟩)) ∧
    (old.revision = c.arg1 → (∀ r, SourceRec.unpack (c.payload.take 12) = some r → r.ok = false) →
      s.judge c = (s, ⟨.range, 0, 0, 0, []⟩)) ∧
    (∀ r, old.revision = c.arg1 → SourceRec.unpack (c.payload.take 12) = some r → r.ok = true →
      ∃ t, s.judge c = (t, ⟨.ok, 1, (old.revision + 1) % 65536, 0, []⟩) ∧
        t.src.records = s.src.records.set n { r with revision := (old.revision + 1) % 65536 } ∧
        (∀ m, m ≠ n → t.src.states.get m = s.src.states.get m) ∧
        t.src.states.get n = { s.src.states.get n with
          state := if r.enabled = true then .waiting else .off
          tag := none
          frameOpen := false
          accepted := 0
          lastLine := 0
          lastSegment := 0
          sinceStart := 0 } ∧
        t = { s with src := t.src, store := { s.store with wins := t.store.wins } } ∧
        ∀ k, t.store.wins.get k = { s.store.wins.get k with bufs := (t.store.wins.get k).bufs } ∧
          ((s.store.wins.get k).feeding ≠ some n → t.store.wins.get k = s.store.wins.get k) ∧
          (t.store.wins.get k).bufs.length = (s.store.wins.get k).bufs.length ∧
          ((s.store.wins.get k).feeding = some n → ∀ (i : Nat) (b : Buffer), (s.store.wins.get k).bufs[i]? = some b →
            ∃ b', (t.store.wins.get k).bufs[i]? = some b' ∧ b'.pages = b.pages ∧ b'.mark = b.mark ∧
              (b.role = .showing → b'.role = .showing) ∧
              (b.role = .spare → b'.role = .spare) ∧
              (b.role.isFilling = true → b'.role = .filling .armed) ∧
              (b.role = .ready → b'.role =
                if (s.store.wins.get k).bufs.length = 2 then .filling .armed else .spare)))

/-- R158, R155, R156: WRITE: READONLY, RANGE (log 13) and DENIED, which change nothing (that RANGE by index and count holds of
COUNTERS too, which carries no records, is the model's choice, log 12); then the records one by one from the
index on, wrapping: each is written on the state that the one before left, the first that fails stops the command with its
result, and the count is the number written. A WRITE of COUNTERS zeroes those its first argument names, all when it names none.
R123, R156, R111, R135, R46, R2: what a record does, table by table: a SETUP record becomes the pending copy; an ORIGINS record
sets the class; a GLYPHS or TRIGGERS record replaces its entry, the pending strobe kept; a SOURCES or WINDOWS record does what
WRITE_IF does with the revision that stands; each only if it is legal. -/
def Obligations.WriteTables : Prop :=
  (∀ (s : State) (c : Control) (t : TableId) (cls : OrigClass), c.command = 2 → TableId.ofCode c.table = some t →
    cls = s.classOf c.originator →
    (cls = .operator ∧ t.supervisorOnly = true → s.judge c = (s, ⟨.denied, 0, 0, 0, []⟩)) ∧
    (t.readOnly = true → s.judge c = (s, ⟨.readonly, 0, 0, 0, []⟩)) ∧
    (¬(cls = .operator ∧ t.supervisorOnly = true) → t.readOnly = false →
      (t.records ≤ c.index ∨ 240 / t.recordSize < c.count → s.judge c = (s, ⟨.range, 0, 0, 0, []⟩)) ∧
      (c.index < t.records → c.count ≤ 240 / t.recordSize → t ≠ .counters →
        ∃ (done : Nat) (r : Result) (state : Nat → State) (bytes : Nat → List Byte),
          s.judge c = (state done, ⟨r, done, 0, 0, []⟩) ∧ state 0 = s ∧
          (∀ j, bytes j = (c.payload.drop (j * t.recordSize)).take t.recordSize) ∧
          (∀ j, j < done →
            (state j).writeRecord cls t ((c.index + j) % t.records) (bytes j) = .written (state (j + 1))) ∧
          ((r = .ok ∧ done = c.count) ∨
            (r ≠ .ok ∧ done < c.count ∧
              (state done).writeRecord cls t ((c.index + done) % t.records) (bytes done) = .failed r))) ∧
      (c.index = 0 → c.count ≤ 8 → t = .counters → ∀ named : Nat → Bool,
        (∀ i, named i = (decide (c.arg1 % 64 = 0) || c.arg1.testBit i)) →
        s.judge c = ({ s with
            ring := { s.ring with
              cellsReceived := if named 0 = true then 0 else s.ring.cellsReceived
              checkErrors := if named 1 = true then 0 else s.ring.checkErrors
              alignLosses := if named 2 = true then 0 else s.ring.alignLosses
              controlTaken := if named 3 = true then 0 else s.ring.controlTaken
              repliesDropped := if named 4 = true then 0 else s.ring.repliesDropped }
            timer := { s.timer with slip := if named 5 = true then 0 else s.timer.slip } },
          ⟨.ok, (List.range 6).countP named, 0, 0, []⟩)))) ∧
  (∀ (s : State) (cls : OrigClass) (bytes : List Byte),
    (∀ r, r = Setup.unpack bytes →
      s.writeRecord cls .setup 0 bytes = if r.ok s.cues.queue.length = true
        then .written { s with timer := { s.timer with pendSetup := some r } } else .failed .range) ∧
    (∀ i : Fin 16, s.writeRecord cls .origins i.val bytes =
      if byteAt bytes 0 = 1 then .written { s with cmd := { s.cmd with origins := s.cmd.origins.set i .supervisor } }
      else if byteAt bytes 0 = 0 ∧ i ≠ 0
        then .written { s with cmd := { s.cmd with origins := s.cmd.origins.set i .operator } }
      else .failed .range) ∧
    (∀ (i : Fin 128), s.writeRecord cls .glyphs i.val bytes =
      .written { s with comp := { s.comp with
        glyphs := s.comp.glyphs.set i (Table.ofFn fun row => BitVec.ofNat 12 (field bytes (2 * row.val) 2 / 16)) } }) ∧
    (∀ i : Fin 8, (∀ r, Trigger.unpack bytes = some r → r.ok = false) →
      s.writeRecord cls .triggers i.val bytes = .failed .range) ∧
    (∀ (i : Fin 8) (r : Trigger), Trigger.unpack bytes = some r → r.ok = true →
      s.writeRecord cls .triggers i.val bytes =
        .written { s with cues := { s.cues with triggers := s.cues.triggers.set i r } }) ∧
    (∀ (n : Fin 32) (c : Control) (t : State) (a : Answer), c.command = 3 → c.table = 3 → c.index = n.val →
      c.arg1 = (s.src.records.get n).revision → bytes = c.payload.take 12 → s.judge c = (t, a) →
      s.writeRecord cls .sources n.val bytes = if a.result = .ok then .written t else .failed a.result) ∧
    (∀ (n : Fin 32) (c : Control) (t : State) (a : Answer), c.command = 3 → c.table = 4 → c.index = n.val →
      cls = s.classOf c.originator → c.arg1 = (s.scene.shadow.get n).revision → bytes = c.payload.take 80 →
      s.judge c = (t, a) →
      s.writeRecord cls .windows n.val bytes = if a.result = .ok then .written t else .failed a.result))

/-- R160, R5, R156: NUDGE, by its index, its class check and its two signed 12-bit offsets: x and y of the window's legal shadow
record move by the offsets, kept on the canvas, the revision is raised, the reply carries the new x and y, and nothing else of
the tile changes. The shadow list is that of R6 and stays as it was. -/
def Obligations.NudgeClamps : Prop :=
  ∀ (s : State) (c : Control), c.command = 6 →
    (32 ≤ c.index → s.judge c = (s, ⟨.range, 0, 0, 0, []⟩)) ∧
    (∀ n : Fin 32, c.index = n.val → s.classOf c.originator = .operator → (s.scene.shadow.get n).pinned = true →
      s.judge c = (s, ⟨.denied, 0, 0, 0, []⟩)) ∧
    (∀ (n : Fin 32) (r : WinRec) (dx dy : Int), c.index = n.val → r = s.scene.shadow.get n → r.ok = true →
      ¬(s.classOf c.originator = .operator ∧ r.pinned = true) →
      dx = (BitVec.ofNat 12 c.arg1).toInt → dy = (BitVec.ofNat 12 c.arg2).toInt →
      ∃ (t : State) (x' y' : Nat), s.judge c = (t, ⟨.ok, 0, x', y', []⟩) ∧
        t = { s with scene := { s.scene with
          shadow := s.scene.shadow.set n { r with x := x', y := y', revision := (r.revision + 1) % 65536 }
          shadowList := t.scene.shadowList } } ∧
        (ListOf s.scene.shadow s.scene.shadowList → t.scene.shadowList = s.scene.shadowList) ∧
        x' + r.w ≤ 32768 ∧ y' + r.h ≤ 16384 ∧
        (0 ≤ r.x + dx → r.x + dx + r.w ≤ 32768 → (x' : Int) = r.x + dx) ∧
        (r.x + dx < 0 → x' = 0) ∧
        (32768 < r.x + dx + r.w → x' = 32768 - r.w) ∧
        (0 ≤ r.y + dy → r.y + dy + r.h ≤ 16384 → (y' : Int) = r.y + dy) ∧
        (r.y + dy < 0 → y' = 0) ∧
        (16384 < r.y + dy + r.h → y' = 16384 - r.h))

/-- R14, R15, R16, R17, R18: the actions of the Scene Controller, each with everything else of the scene as it was: RAISE, with
lists sound for their tables; SOURCE, with the report of a switch in place; RECALL; and the commands PRESET_LOAD and
PRESET_SAVE. R8, Table 1-4: the command STACK: its checks (that DENIED comes before the RANGE of a disabled window or an unknown
operation is the model's choice, log 11), and, for a shadow list sound for its table, RAISE, LOWER, FRONT and BACK within the
window's tier, which leave the list where the window stands at the edge of its tier. -/
def Obligations.SceneActions : Prop :=
  (∀ (sc : Scene) (n : Fin 32), ListOf sc.shadow sc.shadowList → ListOf sc.active sc.activeList →
    sc.raise n = { sc with shadowList := (sc.raise n).shadowList, activeList := (sc.raise n).activeList } ∧
    RaisedIn sc.shadow n sc.shadowList (sc.raise n).shadowList ∧
    RaisedIn sc.active n sc.activeList (sc.raise n).activeList) ∧
  (∀ (sc : Scene) (n src : Fin 32) (sw : List (Fin 32)) (revision : Nat),
    revision = ((sc.shadow.get n).revision + 1) % 65536 →
    sc.setSource n src = { sc with
      shadow := sc.shadow.set n { sc.shadow.get n with source := src, revision := revision }
      active := sc.active.set n { sc.active.get n with source := src, revision := revision } } ∧
    (SceneWork.source ⟨sc, sw⟩ n src).scene = sc.setSource n src ∧
    (SceneWork.source ⟨sc, sw⟩ n src).switched =
      if (sc.active.get n).enabled = true ∧ (sc.active.get n).tourLen = 0 ∧ (sc.active.get n).source ≠ src
      then sw ++ [n] else sw) ∧
  (∀ (sc : Scene) (p : Fin 4), (sc.presets.get p).valid = false → sc.recall p = sc) ∧
  (∀ (sc : Scene) (p : Fin 4), (sc.presets.get p).valid = true →
    sc.recall p = { sc.loadPreset p with commitPending := true }) ∧
  (∀ (sc : Scene) (p : Fin 4) (t : Scene), t = sc.loadPreset p →
    t = { sc with shadow := t.shadow, shadowList := t.shadowList, recallNote := true } ∧
    (∀ n, (sc.shadow.get n).pinned = true → t.shadow.get n = sc.shadow.get n) ∧
    (∀ n, (sc.shadow.get n).pinned = false → (sc.presets.get p).slots.get n = none →
      t.shadow.get n = { WinRec.default with revision := ((sc.shadow.get n).revision + 1) % 65536 }) ∧
    (∀ n r, (sc.shadow.get n).pinned = false → (sc.presets.get p).slots.get n = some r →
      t.shadow.get n = { r with revision := ((sc.shadow.get n).revision + 1) % 65536 }) ∧
    t.shadowList = (sc.shadowList.filter fun n => (sc.shadow.get n).pinned) ++
      (sc.presets.get p).list.filter fun n => !(t.shadow.get n).pinned) ∧
  (∀ (s : State) (c : Control), c.command = 8 →
    (4 ≤ c.index → s.judge c = (s, ⟨.range, 0, 0, 0, []⟩)) ∧
    (∀ p : Fin 4, c.index = p.val → s.judge c =
      if (s.scene.presets.get p).valid = true then ({ s with scene := s.scene.loadPreset p }, ⟨.ok, 0, 0, 0, []⟩)
      else (s, ⟨.empty, 0, 0, 0, []⟩))) ∧
  (∀ (s : State) (c : Control) (p : Fin 4), c.command = 7 → c.index = p.val →
    s.classOf c.originator = .supervisor →
    ∃ q : Preset, s.judge c = ({ s with scene := { s.scene with presets := s.scene.presets.set p q } },
        ⟨.ok, 0, 0, 0, []⟩) ∧
      q.valid = true ∧ q.list = (s.scene.shadowList.filter fun n => !(s.scene.shadow.get n).pinned) ∧
      ∀ n, q.slots.get n = if (s.scene.shadow.get n).pinned = true then none else some (s.scene.shadow.get n)) ∧
  (∀ (s : State) (c : Control) (before : List (Fin 32)) (pinned : Fin 32 → Bool), c.command = 5 →
    before = s.scene.shadowList → (∀ m, pinned m = (s.scene.shadow.get m).pinned) →
    (32 ≤ c.index → s.judge c = (s, ⟨.range, 0, 0, 0, []⟩)) ∧
    ∀ n : Fin 32, c.index = n.val →
      (s.classOf c.originator = .operator ∧ pinned n = true → s.judge c = (s, ⟨.denied, 0, 0, 0, []⟩)) ∧
      (¬(s.classOf c.originator = .operator ∧ pinned n = true) →
        ((s.scene.shadow.get n).enabled = false ∨ 4 ≤ c.arg1 → s.judge c = (s, ⟨.range, 0, 0, 0, []⟩)) ∧
        ((s.scene.shadow.get n).enabled = true → c.arg1 < 4 → ListOf s.scene.shadow before →
          ∃ after : List (Fin 32), s.judge c =
              ({ s with scene := { s.scene with shadowList := after } }, ⟨.ok, 0, 0, 0, []⟩) ∧
            (c.arg1 = 0 →
              (∀ back, before = n :: back → after = before) ∧
              ∀ front m back, before = front ++ m :: n :: back →
                after = if pinned m = pinned n then front ++ n :: m :: back else before) ∧
            (c.arg1 = 1 →
              (∀ front, before = front ++ [n] → after = before) ∧
              ∀ front m back, before = front ++ n :: m :: back →
                after = if pinned m = pinned n then front ++ m :: n :: back else before) ∧
            (c.arg1 = 2 → RaisedIn s.scene.shadow n before after) ∧
            (c.arg1 = 3 → ∃ front back, after = front ++ n :: back ∧
              front ++ back = (before.filter fun m => decide (m ≠ n)) ∧
              (pinned n = true → (∀ m ∈ front, pinned m = true) ∧ ∀ m ∈ back, pinned m = false) ∧
              (pinned n = false → back = [])))))

/-! ### Wall timing -/

/-- R116 to R119, R122: the lock thresholds and the start timeout as commands of their own (log 3): where the limit is
reached, the lock state changes with its counts, trim and gate, or the gate opens; elsewhere nothing changes. That the STATUS
cell an event builds already shows the new lock state and gate is the model's choice (log 15); so is L + 1 as the length kept for
a frame that is already at or past its new length (log 31). -/
def Obligations.TimerThresholds : Prop :=
  (∀ s : State, s.ring.phase = .running → s.timer.lock = .acquire → 8 ≤ s.timer.good →
    ∃ t, exec .lockAcquired s = .next t ∧
      t.timer = { s.timer with
        lock := .locked
        good := 0
        bad := 0
        gate := .opened
        trim := s.timer.lastPhase.sign
        frameLen := s.frameLengthWith s.timer.lastPhase.sign } ∧
      t.cmd.attention = s.cmd.attention ||| EventKind.lockChange.bit |||
        (if s.timer.gate = .gated then EventKind.gateOpen.bit else 0) ∧
      CommandKept s t ∧ RingKeptButSlot s t ∧ PictureKept s t) ∧
  (∀ s : State, s.ring.phase ≠ .running ∨ s.timer.lock ≠ .acquire ∨ s.timer.good < 8 →
    exec .lockAcquired s = .next s) ∧
  (∀ s : State, s.ring.phase = .running → s.timer.lock = .locked → 3 ≤ s.timer.bad →
    ∃ t, exec .lockBadLimit s = .next t ∧
      t.timer = { s.timer with
        lock := .acquire
        good := 0
        bad := 0
        trim := max (-8) (min 8 s.timer.lastPhase)
        frameLen := s.frameLengthWith (max (-8) (min 8 s.timer.lastPhase)) } ∧
      Latched .lockChange s t ∧ RingKeptButSlot s t ∧ PictureKept s t) ∧
  (∀ s : State, s.ring.phase ≠ .running ∨ s.timer.lock ≠ .locked ∨ s.timer.bad < 3 →
    exec .lockBadLimit s = .next s) ∧
  (∀ s : State, s.ring.phase = .running → s.timer.lock = .acquire → s.timer.syncNoted = false → 3 ≤ s.timer.missed →
    ∃ t, exec .acquireMissedLimit s = .next t ∧ t.timer = { s.timer with lock := .free, good := 0 } ∧
      Latched .lockChange s t ∧ RingKeptButSlot s t ∧ PictureKept s t) ∧
  (∀ s : State, s.ring.phase ≠ .running ∨ s.timer.lock ≠ .acquire ∨ s.timer.syncNoted = true ∨ s.timer.missed < 3 →
    exec .acquireMissedLimit s = .next s) ∧
  (∀ s : State, s.ring.phase = .running → s.timer.lock = .holdover → s.timer.syncNoted = false →
    s.timer.setup.holdoverLimit ≤ s.timer.missed →
    ∃ t, exec .holdoverLimit s = .next t ∧ t.timer = { s.timer with lock := .free } ∧
      Latched .lockChange s t ∧ RingKeptButSlot s t ∧ PictureKept s t) ∧
  (∀ s : State, s.ring.phase ≠ .running ∨ s.timer.lock ≠ .holdover ∨ s.timer.syncNoted = true ∨
    s.timer.missed < s.timer.setup.holdoverLimit → exec .holdoverLimit s = .next s) ∧
  (∀ s : State, s.ring.phase = .running → s.timer.gate = .gated → 1 ≤ s.timer.setup.startTimeout →
    s.timer.setup.startTimeout ≤ s.timer.startCount →
    ∃ t, exec .startTimeout s = .next t ∧ t.timer = { s.timer with gate := .opened } ∧
      Latched .gateOpen s t ∧ RingKeptButSlot s t ∧ PictureKept s t) ∧
  (∀ s : State, s.ring.phase ≠ .running ∨ s.timer.gate = .opened ∨ s.timer.setup.startTimeout = 0 ∨
    s.timer.startCount < s.timer.setup.startTimeout → exec .startTimeout s = .next s)

/-- R115 to R118, R122: the arrival of a good SYNC cell in UP: number, flags, note, phase error, then lock state, counts, trim
and gate, and nothing else of the timer. The phase error, measured at a line of a frame of at most V + 8 lines with the offset
below V, lies in -V/2 < e ≤ V/2 and differs from the raw error by 0 or V. R116: the length of the frame in progress follows from
the trim; that it is kept as L + 1, and not as V + trim, where the line count is already there, is the model's choice (log 31);
the frame ends at the next line start in either case. R164, R165: SLIP, LOCK_CHANGE and GATE_OPEN are latched exactly in their
cases; one of them in the event mask builds a STATUS cell, and with none the status slot is as forwarding the cell leaves it. -/
def Obligations.SyncArrivalJudged : Prop :=
  (∀ (s : State) (c : Cell) (placeFirst : Bool), Cell.Whole c → s.ring.phase = .running → s.ring.link = .up →
    cellGood c = true → cellKind c = .sync →
    ∃ (t : State) (e : Int), exec (.cellReceived c placeFirst) s = .next t ∧
      e = phaseError s.timer.setup.v s.timer.setup.o s.timer.lineCount ∧
      t.timer.nextN = syncNumber c ∧ t.timer.pendFlags = syncFlags c ∧ t.timer.syncNoted = true ∧
      t.timer.lastPhase = e ∧
      t.timer.slip = (if syncNumber c = s.timer.wallN + 1 then s.timer.slip else min 65535 (s.timer.slip + 1)) ∧
      t.timer.wallN = s.timer.wallN ∧ t.timer.curFlags = s.timer.curFlags ∧ t.timer.prevFlags = s.timer.prevFlags ∧
      t.timer.missed = s.timer.missed ∧ t.timer.lineCount = s.timer.lineCount ∧
      t.timer.lineZeroDue = s.timer.lineZeroDue ∧ t.timer.setup = s.timer.setup ∧
      t.timer.pendSetup = s.timer.pendSetup ∧ t.timer.startCount = s.timer.startCount ∧
      ((s.timer.lock = .free ∨ s.timer.lock = .acquire) →
        (e.natAbs ≤ 2 → 7 ≤ s.timer.good → t.timer.lock = .locked ∧ t.timer.good = 0 ∧ t.timer.bad = 0) ∧
        (e.natAbs ≤ 2 → s.timer.good < 7 → t.timer.lock = .acquire ∧ t.timer.good = s.timer.good + 1 ∧
          t.timer.bad = s.timer.bad) ∧
        (2 < e.natAbs → t.timer.lock = .acquire ∧ t.timer.good = 0 ∧ t.timer.bad = s.timer.bad)) ∧
      (s.timer.lock = .locked →
        (8 < e.natAbs → 2 ≤ s.timer.bad → t.timer.lock = .acquire ∧ t.timer.good = 0 ∧ t.timer.bad = 0) ∧
        (8 < e.natAbs → s.timer.bad < 2 → t.timer.lock = .locked ∧ t.timer.good = s.timer.good ∧
          t.timer.bad = s.timer.bad + 1) ∧
        (e.natAbs ≤ 8 → t.timer.lock = .locked ∧ t.timer.good = s.timer.good ∧ t.timer.bad = 0)) ∧
      (s.timer.lock = .holdover →
        (e.natAbs ≤ 2 → t.timer.lock = .locked ∧ t.timer.good = s.timer.good ∧ t.timer.bad = 0) ∧
        (2 < e.natAbs → t.timer.lock = .acquire ∧ t.timer.good = 0 ∧ t.timer.bad = s.timer.bad)) ∧
      (t.timer.lock = .acquire → t.timer.trim = max (-8) (min 8 e)) ∧
      (t.timer.lock = .locked → t.timer.trim = e.sign) ∧
      t.timer.frameLen = s.frameLengthWith t.timer.trim ∧
      t.timer.gate = (if t.timer.lock = .locked ∧ s.timer.lock ≠ .locked then .opened else s.timer.gate) ∧
      (∃ latched : EventKind → Prop,
        (∀ k, latched k ↔ ((k = .slip ∧ syncNumber c ≠ s.timer.wallN + 1) ∨
          (k = .lockChange ∧ t.timer.lock ≠ s.timer.lock) ∨ (k = .gateOpen ∧ t.timer.gate ≠ s.timer.gate))) ∧
        (∀ k, kindIn t.cmd.attention k = true ↔ (kindIn s.cmd.attention k = true ∨ latched k)) ∧
        ((∃ k, latched k ∧ kindIn s.timer.setup.eventMask k = true) → StatusBuilt t) ∧
        ((∀ k, latched k → kindIn s.timer.setup.eventMask k = false) → t.ring.slot = (s.ring.passed c).slot)) ∧
      CommandKept s t ∧ PictureKept s t) ∧
  (∀ v o l : Nat, 16 ≤ v → o < v → l < v + 8 →
    -(v : Int) < 2 * phaseError v o l ∧ 2 * phaseError v o l ≤ v ∧
    (phaseError v o l = (l : Int) - o ∨ phaseError v o l = (l : Int) - o - v ∨ phaseError v o l = (l : Int) - o + v))

/-- R114, R119, R120, R122, R124, R113: what the frame mark at the end of a frame leaves in the Frame Timer, whatever the order of
the other blocks (log 5); and R96, R165: the output state and backlight, and the interval count, by the side of the mark their
block takes (the orders are the operand's, log 5); the STATUS cell of the interval, which where the Command Unit's work comes last
reports the tile as the mark leaves it, and those of LOCK_CHANGE, SETUP_TAKEN and GATE_OPEN in the event mask (by the new mask
for the kinds of the setup latch: log 15). -/
def Obligations.FrameMarkTimer : Prop :=
  ∀ (s : State) (o : MarkOrder), s.ring.phase = .running → s.timer.lineZeroDue = false →
    s.timer.frameLen ≤ s.timer.lineCount + 1 →
    ∃ (t : State) (missed : Nat) (l : LockState), exec (.frameMark o) s = .next t ∧
      missed = (if s.timer.syncNoted = true then 0 else min 1000 (s.timer.missed + 1)) ∧
      l = (if s.timer.syncNoted = true then s.timer.lock
        else match s.timer.lock with
          | .free => .free
          | .acquire => if 3 ≤ missed then .free else .acquire
          | .locked => .holdover
          | .holdover => if s.timer.setup.holdoverLimit ≤ missed then .free else .holdover) ∧
      t.timer.missed = missed ∧
      t.timer.wallN = (if s.timer.syncNoted = true then s.timer.nextN else s.timer.wallN + 1) ∧
      t.timer.prevFlags = s.timer.curFlags ∧
      t.timer.curFlags = (if s.timer.syncNoted = true then s.timer.pendFlags else s.timer.curFlags) ∧
      t.timer.pendFlags = s.timer.pendFlags ∧ t.timer.syncNoted = false ∧
      t.timer.setup = s.timer.pendSetup.getD s.timer.setup ∧ t.timer.pendSetup = none ∧
      t.timer.lock = (if l = .locked ∧ (t.timer.setup.v ≠ s.timer.setup.v ∨ t.timer.setup.o ≠ s.timer.setup.o)
        then .acquire else l) ∧
      t.timer.good = (if (s.timer.syncNoted = false ∧ s.timer.lock = .acquire) ∨
        ((l = .locked ∨ l = .acquire) ∧ (t.timer.setup.v ≠ s.timer.setup.v ∨ t.timer.setup.o ≠ s.timer.setup.o))
        then 0 else s.timer.good) ∧
      t.timer.bad = (if (s.timer.syncNoted = false ∧ s.timer.lock = .locked) ∨
        (l = .locked ∧ (t.timer.setup.v ≠ s.timer.setup.v ∨ t.timer.setup.o ≠ s.timer.setup.o))
        then 0 else s.timer.bad) ∧
      (t.timer.lock ≠ s.timer.lock → kindIn t.cmd.attention .lockChange = true) ∧
      (s.timer.pendSetup ≠ none → kindIn t.cmd.attention .setupTaken = true) ∧
      t.timer.startCount = min 1000 (s.timer.startCount + 1) ∧
      t.timer.gate = (if s.timer.gate = .opened ∨
        (1 ≤ t.timer.setup.startTimeout ∧ t.timer.setup.startTimeout ≤ t.timer.startCount) then .opened else .gated) ∧
      (t.timer.gate ≠ s.timer.gate → kindIn t.cmd.attention .gateOpen = true) ∧
      t.timer.lineCount = 0 ∧ t.timer.lineZeroDue = true ∧ t.timer.trim = 0 ∧ t.timer.frameLen = t.timer.setup.v ∧
      t.timer.slip = s.timer.slip ∧ t.timer.nextN = s.timer.nextN ∧ t.timer.lastPhase = s.timer.lastPhase ∧
      (∀ u : State, u = (if o.compositorFirst = true then s else t) →
        (u.timer.gate = .opened →
          t.comp = { s.comp with output := .show, backlight := u.timer.setup.backlight }) ∧
        (u.timer.gate = .gated → t.comp = { s.comp with output := .black, backlight := 0 })) ∧
      (∀ u : State, u = (if o.commandFirst = true then s else t) →
        t.cmd.intervalCount =
          if u.timer.setup.statusInterval ≤ s.cmd.intervalCount + 1 then 0 else s.cmd.intervalCount + 1) ∧
      (IntervalDue o s t → StatusBuilt t ∧ (o.commandFirst = false → t.ring.slot = some (statusBody t))) ∧
      (∀ k, k = .lockChange ∨ k = .setupTaken ∨ k = .gateOpen → MarkLatches s t False False False k →
        kindIn (markMask s t k) k = true → StatusBuilt t) ∧
      RingKeptButSlot s t ∧ t.cmd.address = s.cmd.address ∧ t.cmd.origins = s.cmd.origins ∧
      t.src.records = s.src.records ∧ t.comp.glyphs = s.comp.glyphs ∧ t.cues.triggers = s.cues.triggers ∧
      t.scene.presets = s.scene.presets ∧ t.freeIdx = s.freeIdx

/-- R10, R13, R139, R22: the frame mark at the end of a frame takes every pending commit, clear and strobe: a pending clear sets
its state OFF in an enabled window that no trigger unit can set again, and does nothing else in a disabled one; a commit
pending before the mark puts the shadow scene on the wall. R127, R131, R132: after it the queue holds no cue whose target is at
or before the new wall frame number; the premise, that a REPEAT cue of the queue has a period of 1..65535, is the invariant
CuesLegal's. -/
def Obligations.FrameMarkScene : Prop :=
  ∀ (s : State) (o : MarkOrder), s.ring.phase = .running → s.timer.lineZeroDue = false →
    s.timer.frameLen ≤ s.timer.lineCount + 1 →
    ∃ t, exec (.frameMark o) s = .next t ∧
      t.scene.commitPending = false ∧ (∀ i, t.cues.strobes.get i = false) ∧
      (∀ n, (t.scene.wins.get n).blankClear = false ∧ (t.scene.wins.get n).highlightClear = false) ∧
      (∀ n, (s.scene.active.get n).enabled = true →
        ((s.scene.wins.get n).blankClear = true → (∀ i, (s.cues.triggers.get i).action ≠ .blank) →
          (t.scene.wins.get n).blank = .off) ∧
        ((s.scene.wins.get n).highlightClear = true → (∀ i, (s.cues.triggers.get i).action ≠ .highlight) →
          (t.scene.wins.get n).highlight = .off)) ∧
      (∀ n, (s.scene.active.get n).enabled = false →
        (t.scene.wins.get n).blank = (s.scene.wins.get n).blank ∧
        (t.scene.wins.get n).highlight = (s.scene.wins.get n).highlight) ∧
      (s.scene.commitPending = true →
        t.scene.active = t.scene.shadow ∧ t.scene.activeList = t.scene.shadowList ∧ t.scene.recallNote = false ∧
        kindIn t.cmd.attention .commitTaken = true) ∧
      ((∀ c ∈ s.cues.queue, c.mode = .repeating → 1 ≤ c.period ∧ c.period ≤ 65535) →
        (∀ c ∈ t.cues.queue, atOrBefore t.timer.wallN c.target = false) ∧
        t.cues.queue.length ≤ s.cues.queue.length)

/-- R22: the Scene Controller's work at the frame mark at the end of a frame, in its order, with N, the flag words and the
setup as the Frame Timer leaves them. R131, R132: the due cues of the queue act one after the other, and a REPEAT cue is put
back; R13: the pending clears; R138: the trigger units, unit 0 first; R10, R14, R19: the commit; R20, R21: the tour steps; R23:
what is handed over, with the change set of R11 (what "any other field" takes in is the model's choice, log 14), to the Store
Manager's work, which reads the source states before or after the Source Tracker's own (the operand, log 5). R164, R165: the
kinds that the whole mark latches, CUE_LATE, COMMIT_TAKEN and NOMEM (R92) among them, and no other; one of them in the event
mask (by the new mask for the kinds of the setup latch: log 15), or the interval, builds a STATUS cell, and without any the
status slot is as it was. -/
def Obligations.SceneAtMark : Prop :=
  (∀ (s : State) (o : MarkOrder), s.ring.phase = .running → s.timer.lineZeroDue = false →
    s.timer.frameLen ≤ s.timer.lineCount + 1 →
    ∃ (t : State) (q : Nat → CueWork) (k : Nat → SceneWork) (cued acted done : Scene) (h : HandOver)
      (late short : Prop),
      exec (.frameMark o) s = .next t ∧
      q 0 = ⟨⟨s.scene, []⟩, s.cues.queue⟩ ∧ (∀ j, q (j + 1) = (q j).expireOne t.timer.wallN) ∧
      t.cues.queue = (q s.cues.queue.length).queue ∧
      cued = (q s.cues.queue.length).work.scene ∧
      (k 0).switched = (q s.cues.queue.length).work.switched ∧ (k 0).scene = { cued with wins := (k 0).scene.wins } ∧
      (∀ n, (k 0).scene.wins.get n = { cued.wins.get n with
        blank := if (cued.wins.get n).blankClear = true ∧ (cued.active.get n).enabled = true then .off
          else (cued.wins.get n).blank
        highlight := if (cued.wins.get n).highlightClear = true ∧ (cued.active.get n).enabled = true then .off
          else (cued.wins.get n).highlight
        blankClear := false
        highlightClear := false }) ∧
      (∀ i : Fin 8, k (i.val + 1) = (k i.val).unitActs (s.cues.triggers.get i) (s.cues.strobes.get i)
        t.timer.prevFlags t.timer.curFlags) ∧
      acted = (k 8).scene ∧
      (acted.commitPending = false → done = acted) ∧
      (acted.commitPending = true →
        done = { acted with
          active := acted.shadow
          activeList := acted.shadowList
          commitPending := false
          recallNote := false
          wins := done.wins } ∧
        ∀ (n : Fin 32) (before after : WinRec) (w : WinState), before = acted.active.get n → after = acted.shadow.get n →
          w = acted.wins.get n →
          (before.enabled = true → after.enabled = false → done.wins.get n = ⟨.off, .off, 0, none, false, false⟩) ∧
          (before.enabled = false → after.enabled = false →
            done.wins.get n = { w with tourSource := (done.wins.get n).tourSource }) ∧
          (after.enabled = true → done.wins.get n = { w with
            tourSource := if 1 ≤ after.tourLen then w.tourSource else none
            epoch := if 1 ≤ after.tourLen ∧ (before.enabled = false ∨ before.tourLen = 0 ∨
                before.tourLen ≠ after.tourLen ∨
                (∃ i : Fin 8, i.val < after.tourLen ∧ before.tourList.get i ≠ after.tourList.get i) ∨
                before.dwell ≠ after.dwell ∨ acted.recallNote = true) then t.timer.wallN else w.epoch })) ∧
      t.scene = { done with wins := t.scene.wins } ∧
      (∀ (n : Fin 32) (r : WinRec) (w : WinState) (d step : Nat), r = done.active.get n → w = done.wins.get n →
        d = (t.timer.wallN - w.epoch).toNat → step = (if d < 2 ^ 31 then d / (r.dwell + 1) % r.tourLen else 0) →
        (r.enabled = false ∨ r.tourLen = 0 → t.scene.wins.get n = w) ∧
        (r.enabled = true → 1 ≤ r.tourLen → r.tourLen ≤ 8 → t.scene.wins.get n = { w with
          epoch := if d < 2 ^ 31 then w.epoch else t.timer.wallN
          tourSource := some (r.tourList.get (Fin.ofNat 8 step)) })) ∧
      h.active = t.scene.active ∧ h.activeList = t.scene.activeList ∧ h.geo = t.timer.setup.geo ∧
      (∀ n, h.tours.get n = (t.scene.wins.get n).tourSource) ∧
      (h.geoChanged = true ↔ t.timer.setup.geo ≠ s.timer.setup.geo) ∧
      (∀ n, h.changes.get n = if acted.commitPending = true then winChange (acted.active.get n) (acted.shadow.get n)
        else ⟨false, false, false, false, false, false, false, false⟩) ∧
      (∀ n, n ∈ h.switched ↔ (n ∈ (k 8).switched ∨
        ((t.scene.wins.get n).tourSource ≠ (done.wins.get n).tourSource ∧ (h.changes.get n).any = false))) ∧
      t.store = s.store.atMark h (if o.trackerFirst = true then t.src.states else s.src.states) ∧
      (late ↔ ∃ c ∈ s.cues.queue, atOrBefore t.timer.wallN c.target = true ∧ c.target ≠ t.timer.wallN) ∧
      (short ↔ ((h.geoChanged = true ∨ ∃ n, (h.changes.get n).any = true) ∧ 1 ≤ t.store.degraded)) ∧
      (∀ k, kindIn t.cmd.attention k = true ↔
        (kindIn s.cmd.attention k = true ∨ MarkLatches s t late (acted.commitPending = true) short k)) ∧
      (IntervalDue o s t ∨ (∃ k, MarkLatches s t late (acted.commitPending = true) short k ∧
        kindIn (markMask s t k) k = true) → StatusBuilt t) ∧
      (¬IntervalDue o s t → (∀ k, MarkLatches s t late (acted.commitPending = true) short k →
        kindIn (markMask s t k) k = false) → t.ring.slot = s.ring.slot)) ∧
  (∀ (k : CueWork) (n : BitVec 32),
    ((∀ c ∈ k.queue, atOrBefore n c.target = false) → k.expireOne n = k) ∧
    (∀ (front back : List Cue) (c : Cue), k.queue = front ++ c :: back →
      (∀ d ∈ front, atOrBefore n d.target = false) → atOrBefore n c.target = true →
      (k.expireOne n).work = k.work.act c.action c.window c.param ∧
      (c.mode = .once → (k.expireOne n).queue = front ++ back) ∧
      (c.mode = .repeating → ∃ (again : Cue) (f b : List Cue),
        again = { c with target := nextTarget n c.target c.period } ∧
        (k.expireOne n).queue = f ++ again :: b ∧ f ++ b = front ++ back ∧
        (∀ d ∈ f, atOrBefore n d.target = true ∨ distance n d.target ≤ distance n again.target) ∧
        (∀ d, b.head? = some d → atOrBefore n d.target = false ∧ distance n again.target < distance n d.target)))) ∧
  (∀ (before after : WinRec) (c : WinChange), c = winChange before after →
    (c.any = true ↔ (c.enabled = true ∨ c.source = true ∨ c.tour = true ∨ c.dwell = true ∨ c.rect = true ∨ c.crop = true ∨
      c.mode = true ∨ c.other = true)) ∧
    (before.enabled = false → after.enabled = false → c.any = false) ∧
    (before.enabled = true ∨ after.enabled = true →
      (c.enabled = true ↔ before.enabled ≠ after.enabled) ∧ (c.source = true ↔ before.source ≠ after.source) ∧
      (c.tour = true ↔ (before.tourLen ≠ after.tourLen ∨
        ∃ i : Fin 8, i.val < after.tourLen ∧ before.tourList.get i ≠ after.tourList.get i)) ∧
      (c.dwell = true ↔ before.dwell ≠ after.dwell) ∧
      (c.rect = true ↔ (before.x ≠ after.x ∨ before.y ≠ after.y ∨ before.w ≠ after.w ∨ before.h ≠ after.h)) ∧
      (c.crop = true ↔ (before.cx ≠ after.cx ∨ before.cy ≠ after.cy ∨ before.cw ≠ after.cw ∨ before.ch ≠ after.ch)) ∧
      (c.mode = true ↔ before.mode ≠ after.mode) ∧
      (c.other = true ↔ { before with
        enabled := after.enabled
        source := after.source
        tourLen := after.tourLen
        tourList := after.tourList
        dwell := after.dwell
        x := after.x
        y := after.y
        w := after.w
        h := after.h
        cx := after.cx
        cy := after.cy
        cw := after.cw
        ch := after.ch
        mode := after.mode } ≠ after)))

/-- R136, R137, R139, R12, Tables 8-3 and 1-5: what one trigger unit does at a mark. With a pending strobe, or an edge of its
flag (read from both flag words, inverted when it says so; flag select 1 reads 1), it latches its window's blank or highlight,
raises its window, switches its source, or recalls its preset, once. A LEVEL unit without a strobe sets the blank or highlight
that is not LATCHED to LEVEL or OFF by its flag, and raises or switches while its flag is 1. In every other case it does
nothing. -/
def Obligations.TriggerUnitsAct : Prop :=
  (∀ (k after : SceneWork) (u : Trigger) (strobe p c acts : Bool) (prev cur : BitVec 32),
    after = k.unitActs u strobe prev cur →
    p = ((decide (u.flagSelect = 1) || prev.getLsbD (u.flagSelect - 2)) != u.invert) →
    c = ((decide (u.flagSelect = 1) || cur.getLsbD (u.flagSelect - 2)) != u.invert) →
    (acts = true ↔ (strobe = true ∨ (u.flagSelect ≠ 0 ∧
      ((u.edge = .rising ∧ p = false ∧ c = true) ∨ (u.edge = .falling ∧ p = true ∧ c = false) ∨
        (u.edge = .any ∧ p ≠ c))))) →
    (∀ w : Fin 32, u.window.toNat = w.val →
      (acts = true →
        (u.action = .blank → after = k.withBlank w .latched) ∧
        (u.action = .highlight → after = k.withHighlight w .latched) ∧
        (u.action = .raise → after = { k with scene := k.scene.raise w }) ∧
        (∀ src : Fin 32, u.action = .source → u.param.toNat = src.val → after = k.source w src)) ∧
      (acts = false → u.flagSelect ≠ 0 → u.edge = .level →
        (u.action = .blank → after = if (k.scene.wins.get w).blank = .latched then k
          else k.withBlank w (if c = true then .level else .off)) ∧
        (u.action = .highlight → after = if (k.scene.wins.get w).highlight = .latched then k
          else k.withHighlight w (if c = true then .level else .off)) ∧
        (u.action = .raise → after = if c = true then { k with scene := k.scene.raise w } else k) ∧
        (∀ src : Fin 32, u.action = .source → u.param.toNat = src.val →
          after = if c = true then k.source w src else k))) ∧
    (∀ preset : Fin 4, u.action = .recall → u.param.toNat = preset.val → acts = true →
      after = { k with scene := k.scene.recall preset }) ∧
    (acts = false → u.flagSelect = 0 ∨ u.edge ≠ .level → after = k)) ∧
  (∀ a : AlarmState, a.request .latch = .latched ∧ AlarmState.latched.request .levelOn = .latched ∧
    AlarmState.latched.request .levelOff = .latched ∧
    (a ≠ .latched → a.request .levelOn = .level ∧ a.request .levelOff = .off))

/-! ### Sources -/

/-- R57, R58: what the frame mark at the end of a frame leaves in the Source Tracker, for every source (for an OFF source with
starts in that panel frame, R58 says both 0 and their count, log 30); SOURCE_STALLED and SOURCE_LOST are latched exactly when a
source enters that state there, and then build a STATUS cell when in the event mask (R165). R57: the stall and loss limits as
commands of their own (log 3): where the limit is reached the source changes state with its event latched, and elsewhere nothing
changes. -/
def Obligations.SourcesAtMarkAndLimits : Prop :=
  (∀ (s : State) (o : MarkOrder), s.ring.phase = .running → s.timer.lineZeroDue = false →
    s.timer.frameLen ≤ s.timer.lineCount + 1 →
    ∃ t, exec (.frameMark o) s = .next t ∧ t.src.records = s.src.records ∧
      (kindIn t.cmd.attention .sourceStalled = true ↔ (kindIn s.cmd.attention .sourceStalled = true ∨
        ∃ n, ((s.src.states.get n).state = .waiting ∨ (s.src.states.get n).state = .live) ∧
          (s.src.records.get n).stallLimit ≤ (t.src.states.get n).sinceStart)) ∧
      (kindIn t.cmd.attention .sourceLost = true ↔ (kindIn s.cmd.attention .sourceLost = true ∨
        ∃ n, (s.src.states.get n).state ≠ .lost ∧ (t.src.states.get n).state = .lost)) ∧
      (∀ k, k = .sourceStalled ∨ k = .sourceLost → MarkLatches s t False False False k →
        kindIn t.timer.setup.eventMask k = true → StatusBuilt t) ∧
      ∀ n,
      ∃ (before after : SourceTrack) (r : SourceRec),
        before = s.src.states.get n ∧ after = t.src.states.get n ∧ r = s.src.records.get n ∧
        after.sinceStart =
          (if before.state = .off then before.sinceStart else min 65535 (before.sinceStart + 1)) ∧
        after.state =
          (if before.state = .off ∨ before.state = .lost then before.state
           else if r.lossLimit ≤ after.sinceStart then .lost
           else if before.state = .stalled ∨ r.stallLimit ≤ after.sinceStart then .stalled
           else before.state) ∧
        (before.state ≠ .off → after.lastStarts = before.runningStarts) ∧
        (before.state = .off → after.lastStarts = 0 ∨ after.lastStarts = before.runningStarts) ∧
        after = { before with
          sinceStart := after.sinceStart
          state := after.state
          lastStarts := after.lastStarts
          runningStarts := 0 }) ∧
  (∀ (s : State) (n : Fin 32), s.ring.phase = .running →
    ((s.src.states.get n).state = .waiting ∨ (s.src.states.get n).state = .live) →
    (s.src.records.get n).stallLimit ≤ (s.src.states.get n).sinceStart →
    ∃ t, exec (.stallLimit n) s = .next t ∧ Latched .sourceStalled s t ∧ RingKeptButSlot s t ∧
      t.src = { s.src with states := s.src.states.set n { s.src.states.get n with state := .stalled } } ∧
      t.timer = s.timer ∧ t.scene = s.scene ∧ StoreKept s t ∧ t.comp = s.comp ∧ t.cues = s.cues) ∧
  (∀ (s : State) (n : Fin 32), s.ring.phase ≠ .running ∨
    ((s.src.states.get n).state ≠ .waiting ∧ (s.src.states.get n).state ≠ .live) ∨
    (s.src.states.get n).sinceStart < (s.src.records.get n).stallLimit → exec (.stallLimit n) s = .next s) ∧
  (∀ (s : State) (n : Fin 32), s.ring.phase = .running →
    ((s.src.states.get n).state = .waiting ∨ (s.src.states.get n).state = .live ∨
      (s.src.states.get n).state = .stalled) →
    (s.src.records.get n).lossLimit ≤ (s.src.states.get n).sinceStart →
    ∃ t, exec (.lossLimit n) s = .next t ∧ Latched .sourceLost s t ∧ RingKeptButSlot s t ∧
      t.src = { s.src with states := s.src.states.set n { s.src.states.get n with state := .lost } } ∧
      t.timer = s.timer ∧ t.scene = s.scene ∧ StoreKept s t ∧ t.comp = s.comp ∧ t.cues = s.cues) ∧
  (∀ (s : State) (n : Fin 32), s.ring.phase ≠ .running ∨ (s.src.states.get n).state = .off ∨
    (s.src.states.get n).state = .lost ∨
    (s.src.states.get n).sinceStart < (s.src.records.get n).lossLimit → exec (.lossLimit n) s = .next s)

/-- R49, R51: a good STRIP cell in UP that fails a header check, or is stale (of no open frame or of another frame, and no frame
start), changes, beside the Ring Port, its source's strips discarded alone; one of the open frame that is not after the last
accepted position changes the source's sequence violations alone; one that names no source changes nothing. -/
def Obligations.FailedStripsDiscarded : Prop :=
  ∀ (s : State) (c : Cell) (placeFirst : Bool), Cell.Whole c → s.ring.phase = .running → s.ring.link = .up →
    cellGood c = true → cellKind c = .strip →
    ∃ t, exec (.cellReceived c placeFirst) s = .next t ∧
      (31 < (stripOf c).source → t = { s with ring := s.ring.passed c }) ∧
      ∀ (n : Fin 32) (k : SourceTrack), (stripOf c).source = n.val → k = s.src.states.get n →
        ((s.src.records.get n).accepts (stripOf c) = true ↔
          ((s.src.records.get n).enabled = true ∧ (stripOf c).format = (s.src.records.get n).format.code ∧
            (stripOf c).line < (s.src.records.get n).sh ∧ (stripOf c).segment < (s.src.records.get n).segments)) ∧
        ((s.src.records.get n).accepts (stripOf c) = false ∨
          ((stripOf c).line ≠ 0 ∨ (stripOf c).segment ≠ 0 ∨ k.tag = some (stripOf c).tag) ∧
            (k.frameOpen = false ∨ k.tag ≠ some (stripOf c).tag) →
          t = { s with
            ring := s.ring.passed c
            src := { s.src with states := s.src.states.set n { k with discarded := min 65535 (k.discarded + 1) } } }) ∧
        ((s.src.records.get n).accepts (stripOf c) = true → k.frameOpen = true → k.tag = some (stripOf c).tag →
          (stripOf c).line < k.lastLine ∨ ((stripOf c).line = k.lastLine ∧ (stripOf c).segment ≤ k.lastSegment) →
          t = { s with
            ring := s.ring.passed c
            src := { s.src with states := s.src.states.set n { k with sequence := min 65535 (k.sequence + 1) } } })

/-- R51, R52: a good STRIP cell in UP that passes the checks of R49, carries the tag of the open frame and stands after the
last accepted position: it is counted, becomes the last accepted position, and goes to the Intake Engine; the frame's last
strip then ends the frame. -/
def Obligations.AcceptedStripCounts : Prop :=
  ∀ (s : State) (c : Cell) (placeFirst : Bool) (n : Fin 32) (k : SourceTrack), Cell.Whole c → s.ring.phase = .running →
    s.ring.link = .up → cellGood c = true → cellKind c = .strip → (stripOf c).source = n.val →
    k = s.src.states.get n → (s.src.records.get n).enabled = true →
    (stripOf c).format = (s.src.records.get n).format.code →
    (stripOf c).line < (s.src.records.get n).sh → (stripOf c).segment < (s.src.records.get n).segments →
    k.frameOpen = true → k.tag = some (stripOf c).tag →
    (k.lastLine < (stripOf c).line ∨ ((stripOf c).line = k.lastLine ∧ k.lastSegment < (stripOf c).segment)) →
    ∃ t u : State, exec (.cellReceived c placeFirst) s = .next t ∧
      u = { s with
        ring := s.ring.passed c
        src := { s.src with states := s.src.states.set n { k with
          accepted := k.accepted + 1
          lastLine := (stripOf c).line
          lastSegment := (stripOf c).segment } }
        store := s.store.intake (s.src.records.get n) n (stripOf c) } ∧
      u.store.wins = s.store.wins ∧ u.store.free = s.store.free ∧ u.store.pub = s.store.pub ∧
      t = if (stripOf c).line + 1 = (s.src.records.get n).sh ∧
          (stripOf c).segment + 1 = (s.src.records.get n).segments
        then u.endFrame n else u

/-- R50, R52, R53, R56, R58: a frame start ends the frame that stands open, opens the new one, reports its start with the start
phase and the running start count, and accepts its first strip (which is also the last strip of a frame of one). A frame end
judges the frame by its missing count: complete, it raises the completed count, reports the end as complete and makes the
source LIVE, with SOURCE_LIVE latched where it was not; rejected, it raises the rejected count and reports the end as
rejected. In either case the frame is no longer open, its tag stays, and nothing else of the source changes. -/
def Obligations.FrameStartsAndEnds : Prop :=
  (∀ (s : State) (c : Cell) (placeFirst : Bool) (n : Fin 32), Cell.Whole c → s.ring.phase = .running →
    s.ring.link = .up → cellGood c = true → cellKind c = .strip → (stripOf c).source = n.val →
    (s.src.records.get n).enabled = true → (stripOf c).format = (s.src.records.get n).format.code →
    1 ≤ (s.src.records.get n).sh → 1 ≤ (s.src.records.get n).segments →
    (stripOf c).line = 0 → (stripOf c).segment = 0 → (s.src.states.get n).tag ≠ some (stripOf c).tag →
    ∃ t ended opened : State, exec (.cellReceived c placeFirst) s = .next t ∧
      ended = (if (s.src.states.get n).frameOpen = true then State.endFrame { s with ring := s.ring.passed c } n
        else { s with ring := s.ring.passed c }) ∧
      opened = { ended with
        src := { ended.src with states := ended.src.states.set n { ended.src.states.get n with
          tag := some (stripOf c).tag
          frameOpen := true
          accepted := 1
          lastLine := 0
          lastSegment := 0
          startPhase := s.timer.lineCount
          runningStarts := min 15 ((s.src.states.get n).runningStarts + 1) } }
        store := (ended.store.frameStart s.scene.active n (stripOf c).tag).intake
          (s.src.records.get n) n (stripOf c) } ∧
      t = if (s.src.records.get n).sh = 1 ∧ (s.src.records.get n).segments = 1 then opened.endFrame n else opened) ∧
  (∀ (s : State) (n : Fin 32) (k : SourceTrack) (r : SourceRec) (tag : Byte), k = s.src.states.get n →
    r = s.src.records.get n → k.tag = some tag →
    (r.missingLimit + k.accepted < r.sh * r.segments →
      s.endFrame n = { s with
        src := { s.src with states := s.src.states.set n { k with
          frameOpen := false
          rejected := min 65535 (k.rejected + 1) } }
        store := s.store.frameEnd s.scene.active n tag false }) ∧
    (r.sh * r.segments ≤ r.missingLimit + k.accepted → ∃ u : State,
      u = { s with
        src := { s.src with states := s.src.states.set n { k with
          frameOpen := false
          completed := (k.completed + 1) % 65536
          sinceStart := 0
          state := if k.state = .off then .off else .live } }
        store := s.store.frameEnd s.scene.active n tag true } ∧
      s.endFrame n = if k.state = .off ∨ k.state = .live then u else latch .sourceLive u))

/-- R79 to R82, R78: what the reports of a frame start and a frame end do to each window's buffers, and to nothing else of the
Store Manager: the roles, picture marks, and the counters shown and dropped. -/
def Obligations.BufferReports : Prop :=
  ∀ (m : StoreManager) (active : Table WinRec 32) (src : Fin 32) (tag : Byte),
    m.frameStart active src tag = { m with wins := (m.frameStart active src tag).wins } ∧
    (∀ complete, m.frameEnd active src tag complete = { m with wins := (m.frameEnd active src tag complete).wins }) ∧
    ∀ (k : Fin 32) (w started completed rejected : WinStore), w = m.wins.get k →
      started = (m.frameStart active src tag).wins.get k →
      completed = (m.frameEnd active src tag true).wins.get k →
      rejected = (m.frameEnd active src tag false).wins.get k →
      (w.feeding ≠ some src → started = w ∧ completed = w ∧ rejected = w) ∧
      ((active.get k).mode ≠ .live → started = w ∧ (w.bufs.length = 1 → completed = w)) ∧
      (w.feeding = some src → (active.get k).mode = .live →
        started = { w with bufs := w.bufs.map fun b =>
          if b.role = .filling .armed then { b with role := .filling (.writing tag) } else b }) ∧
      ((∀ b ∈ w.bufs, b.role ≠ .filling (.writing tag)) → rejected = w ∧ (w.bufs.length ≠ 1 → completed = w)) ∧
      (w.feeding = some src →
        rejected = { w with bufs := w.bufs.map fun b =>
          if b.role = .filling (.writing tag) then { b with role := .filling .armed } else b }) ∧
      (w.feeding = some src → w.bufs.length = 3 → (∃ b ∈ w.bufs, b.role = .filling (.writing tag)) →
        ((∃ b ∈ w.bufs, b.role = .ready) →
          completed = { w with
            dropped := (w.dropped + 1) % 65536
            bufs := w.bufs.map fun b =>
              if b.role = .filling (.writing tag) then { b with role := .ready, mark := true }
              else if b.role = .ready then { b with role := .filling .armed } else b }) ∧
        ((∀ b ∈ w.bufs, b.role ≠ .ready) →
          completed = { w with bufs := w.bufs.map fun b =>
            if b.role = .filling (.writing tag) then { b with role := .ready, mark := true }
            else if b.role = .spare then { b with role := .filling .armed } else b })) ∧
      (w.feeding = some src → w.bufs.length = 2 →
        completed = { w with bufs := w.bufs.map fun b =>
          if b.role = .filling (.writing tag) then { b with role := .ready, mark := true } else b }) ∧
      (w.feeding = some src → w.bufs.length = 1 → (active.get k).mode = .live →
        completed = { w with
          shown := (w.shown + 1) % 65536
          bufs := w.bufs.map fun b => if b.role = .showing then { b with mark := true } else b })

/-- R83 to R87, R78: the Store Manager's work at a frame mark, in its order, from what is handed over: the switched windows
are re-armed and take the source that now feeds them; allocation runs when the change set or the geometry calls for it; a
window that enters FREEZE is re-armed; and a LIVE window of two or three buffers shows its READY buffer, or counts a repeat
while its source is LIVE. The scene handed over is then published. -/
def Obligations.BuffersAtMark : Prop :=
  ∀ (m t : StoreManager) (h : HandOver) (states : Table SourceTrack 32), t = m.atMark h states →
    ∃ m1 m2 : StoreManager,
      m1 = { m with wins := m1.wins } ∧
      (∀ (n : Fin 32) (w : WinStore) (feed : Option (Fin 32)), w = m.wins.get n → h.Feeds n feed →
        (w.bufs = [] ∨ (n ∉ h.switched ∧ w.feeding = feed) → m1.wins.get n = w) ∧
        (w.bufs ≠ [] → n ∈ h.switched ∨ w.feeding ≠ feed →
          m1.wins.get n = { w with bufs := w.rearmedBufs, feeding := feed })) ∧
      m2 = (if h.geoChanged = true ∨ (∃ n, (h.changes.get n).any = true) then m1.allocate h else m1) ∧
      t = { m2 with wins := t.wins, pub := ⟨h.active, h.tours, h.geo⟩ } ∧
      ∀ (n : Fin 32) (w : WinStore) (mode : DisplayMode), w = m2.wins.get n → mode = (h.active.get n).mode →
        (mode = .freeze → (h.changes.get n).mode = true → t.wins.get n = { w with bufs := w.rearmedBufs }) ∧
        (mode = .freeze → (h.changes.get n).mode = false → t.wins.get n = w) ∧
        (mode ≠ .freeze → mode ≠ .live ∨ w.bufs.length < 2 → t.wins.get n = w) ∧
        (mode = .live → 2 ≤ w.bufs.length →
          ((∃ b ∈ w.bufs, b.role = .ready) → t.wins.get n = { w with
            shown := (w.shown + 1) % 65536
            bufs := w.bufs.map fun b =>
              if b.role = .ready then { b with role := .showing }
              else if b.role = .showing then { b with role := if w.bufs.length = 2 then .filling .armed else .spare }
              else b }) ∧
          ((∀ b ∈ w.bufs, b.role ≠ .ready) → t.wins.get n =
            if ∃ k, w.feeding = some k ∧ (states.get k).state = .live
            then { w with repeated := (w.repeated + 1) % 65536 } else w))

/-- R88 to R92: an allocation. By the keep rule each window keeps its buffers (re-armed where its rectangle changed) or has
them freed, window 0 first, SHOWING, FILLING, READY and SPARE in this order; then three passes over the active list serve each
window that needs a store and holds 0, 1 or 2 buffers, where the free list has its pages, from the front, filled with the
window's fill colour; the count of degraded windows is set at the end. Nothing else of the Store Manager changes. -/
def Obligations.AllocationServes : Prop :=
  ∀ (m : StoreManager) (h : HandOver) (len : Nat), len = h.activeList.length →
    ∃ (freed : Fin 32 → List Page) (a : Nat → StoreManager) (short : List (Fin 32)),
      (∀ (n : Fin 32) (w : WinStore), w = m.wins.get n →
        (w.bufs = [] → (a 0).wins.get n = w ∧ freed n = []) ∧
        (w.bufs ≠ [] → h.Keeps n w → freed n = [] ∧
          (a 0).wins.get n = if (h.changes.get n).rect = true then { w with bufs := w.rearmedBufs } else w) ∧
        (w.bufs ≠ [] → ¬h.Keeps n w →
          freed n = (w.bufs.filter (fun b => decide (b.role = .showing)) ++ (w.bufs.filter (fun b => b.role.isFilling) ++
            (w.bufs.filter (fun b => decide (b.role = .ready)) ++
              w.bufs.filter (fun b => decide (b.role = .spare))))).flatMap (·.pages) ∧
          (a 0).wins.get n = { w with bufs := [], feeding := none, sized := ((a 0).wins.get n).sized })) ∧
      a 0 = { m with free := m.free ++ (indices 32).flatMap freed, wins := (a 0).wins } ∧
      (∀ (pass j : Nat) (n : Fin 32) (b : StoreManager) (w : WinStore), pass < 3 → h.activeList[j]? = some n →
        b = a (pass * len + j) → w = b.wins.get n →
        ((∀ v, h.Needs n v → w.bufs.length ≠ pass ∨ b.free.length < pagesPerBuffer v) →
          a (pass * len + j + 1) = b) ∧
        (∀ v, h.Needs n v → w.bufs.length = pass → pagesPerBuffer v ≤ b.free.length →
          ∃ (role : Role) (feed : Option (Fin 32)), h.Feeds n feed ∧
            (pass = 0 → role = .showing) ∧ (pass = 1 → role = .filling .armed) ∧
            (pass = 2 → role = if ∃ x ∈ w.bufs, x.role.isFilling = true then .spare else .filling .armed) ∧
            a (pass * len + j + 1) = { b with
              free := b.free.drop (pagesPerBuffer v)
              mem := b.mem.fillPages (b.free.take (pagesPerBuffer v)) (h.active.get n).fill.word
              wins := b.wins.set n { w with
                bufs := w.bufs ++ [⟨b.free.take (pagesPerBuffer v), role, false⟩]
                feeding := if pass = 0 then feed else w.feeding
                sized := if pass = 0 then v else w.sized } })) ∧
      m.allocate h = { a (3 * len) with degraded := short.length } ∧ short.Nodup ∧
      ∀ n, n ∈ short ↔ ∃ v, h.Needs n v ∧ ((a (3 * len)).wins.get n).bufs.length < 3

/-! ### Cues and tours -/

/-- R131, R132: CUE_EXPIRY with a due cue at the front of the queue: the cue is taken out, a REPEAT cue is put back with its
next target, its action is applied, and CUE_LATE is latched when its target is before N; with no due cue nothing changes
(the command of its own, log 3, and its hand-over, log 21, are the model's). -/
def Obligations.CueExpiryActs : Prop :=
  (∀ (s : State) (c : Cue) (rest : List Cue), s.ring.phase = .running → s.cues.queue = c :: rest →
    atOrBefore s.timer.wallN c.target = true →
    ∃ t, exec .cueExpiry s = .next t ∧
      (c.mode = .once → t.cues.queue = rest) ∧
      (c.mode = .repeating →
        List.Perm t.cues.queue ({ c with target := nextTarget s.timer.wallN c.target c.period } :: rest)) ∧
      (c.action = .commit → t.scene = { s.scene with commitPending := true }) ∧
      (c.action = .recall → t.scene = s.scene.recall (indexOf 4 c.param.toNat)) ∧
      (c.action = .raise → t.scene = s.scene.raise (indexOf 32 c.window.toNat)) ∧
      (c.action = .source → t.scene = s.scene.setSource (indexOf 32 c.window.toNat) (indexOf 32 c.param.toNat)) ∧
      (c.target = s.timer.wallN → t.cmd = s.cmd ∧ t.ring = s.ring) ∧
      (c.target ≠ s.timer.wallN →
        t.cmd.attention = s.cmd.attention ||| EventKind.cueLate.bit ∧ CommandKept s t ∧ RingKeptButSlot s t) ∧
      t.cues.triggers = s.cues.triggers ∧ t.cues.strobes = s.cues.strobes ∧ MemoryKept s t ∧
      t.store.free = s.store.free ∧ t.timer = s.timer ∧ t.src = s.src ∧ t.comp = s.comp ∧ t.freeIdx = s.freeIdx) ∧
  (∀ s : State, s.ring.phase ≠ .running ∨ (∀ c ∈ s.cues.queue, atOrBefore s.timer.wallN c.target = false) →
    exec .cueExpiry s = .next s)

/-- R128: the checks of a cue against the queue, and the place an accepted cue takes: the queue stays in order of distance,
and the cue stands after every cue whose distance is at or below its own. R132: the next target of a REPEAT cue lies 1..q
frames after N: it is the first of t + q, t + 2q and so on beyond the D frames from t to N. R128, R161: CUE_ADD: RANGE, DENIED, then LATE, FAR and FULL in this order, each changing nothing, or the cue
enters the queue and the reply's count is the new length. R129: COMMIT with a target frame offers a COMMIT cue of tag 0, ONCE,
period 0, in the same way (its window and parameter bytes are free values, log 27); an index above 1 is RANGE. -/
def Obligations.CuesInOrder : Prop :=
  (∀ (s : State) (c : Cue),
    (s.offerResult c = .late ↔
      (distance s.timer.wallN c.target = 0 ∨ 2 ^ 31 ≤ distance s.timer.wallN c.target)) ∧
    (s.offerResult c = .ok ↔
      (1 ≤ distance s.timer.wallN c.target ∧ distance s.timer.wallN c.target < 2 ^ 31 ∧
        distance s.timer.wallN c.target ≤ s.timer.setup.lookAhead ∧
        s.cues.queue.length < s.timer.admissionLimit))) ∧
  (∀ (n : BitVec 32) (c : Cue) (q : List Cue),
    q.Pairwise (fun a b => distance n a.target ≤ distance n b.target) →
    (insertCue n c q).Pairwise (fun a b => distance n a.target ≤ distance n b.target) ∧
    List.Perm (insertCue n c q) (c :: q) ∧
    ∃ front back, insertCue n c q = front ++ c :: back ∧ q = front ++ back ∧
      (∀ d ∈ front, distance n d.target ≤ distance n c.target) ∧
      (∀ d ∈ back, distance n c.target < distance n d.target)) ∧
  (∀ (n target : BitVec 32) (q : Nat), 1 ≤ q → q ≤ 65535 → atOrBefore n target = true →
    1 ≤ distance n (nextTarget n target q) ∧ distance n (nextTarget n target q) ≤ q ∧
    ∃ k, (n - target).toNat < q * k ∧ q * k ≤ (n - target).toNat + q ∧
      nextTarget n target q = target + BitVec.ofNat 32 (q * k)) ∧
  (∀ (s : State) (c : Control) (bytes : List Byte), c.command = 9 → bytes = c.payload.take 12 →
    (5 < (byteAt bytes 1).toNat ∨ 1 < (byteAt bytes 4).toNat → s.judge c = (s, ⟨.range, 0, 0, 0, []⟩)) ∧
    ((byteAt bytes 1).toNat ≤ 5 → (byteAt bytes 4).toNat ≤ 1 → ∃ cue : Cue,
      cue = ⟨byteAt bytes 0, cue.action, byteAt bytes 2, byteAt bytes 3, cue.mode, field bytes 6 2,
        BitVec.ofNat 32 (field bytes 8 4)⟩ ∧
      cue.action.code = (byteAt bytes 1).toNat ∧ cue.mode.code = (byteAt bytes 4).toNat ∧
      ∀ bad denied : Prop,
        (bad ↔ (cue.action = .blank ∨ cue.action = .highlight ∨ (cue.action = .recall ∧ 3 < cue.param.toNat) ∨
          (cue.action = .source ∧ 31 < cue.param.toNat) ∨
          ((cue.action = .source ∨ cue.action = .raise) ∧ 31 < cue.window.toNat) ∨
          (cue.mode = .repeating ∧ cue.period = 0))) →
        (denied ↔ (s.classOf c.originator = .operator ∧ (cue.action = .source ∨ cue.action = .raise) ∧
          ∃ n : Fin 32, cue.window.toNat = n.val ∧ (s.scene.shadow.get n).pinned = true)) →
        (bad → s.judge c = (s, ⟨.range, 0, 0, 0, []⟩)) ∧
        (¬bad → denied → s.judge c = (s, ⟨.denied, 0, 0, 0, []⟩)) ∧
        (¬bad → ¬denied → CueOffered s cue (s.cues.queue.length + 1) (s.judge c)))) ∧
  (∀ (s : State) (c : Control), c.command = 4 →
    (1 < c.index → s.judge c = (s, ⟨.range, 0, 0, 0, []⟩)) ∧
    (c.index = 1 → ∃ cue : Cue, cue = ⟨0, .commit, cue.window, cue.param, .once, 0,
        BitVec.ofNat 32 (65536 * c.arg1 + c.arg2)⟩ ∧ CueOffered s cue 0 (s.judge c)))

/-- R19, R20, R21: TOUR_STEP of a touring window: its epoch and current tour source by the distance from its epoch; a window
that does not tour is unchanged (the command of its own and its hand-over are the model's, logs 3 and 21). -/
def Obligations.TourStepShows : Prop :=
  (∀ (s : State) (k : Fin 32), s.ring.phase = .running → (s.scene.active.get k).enabled = true →
    1 ≤ (s.scene.active.get k).tourLen → (s.scene.active.get k).tourLen ≤ 8 →
    ∃ (t : State) (d step : Nat), exec (.tourStep k) s = .next t ∧
      d = (s.timer.wallN - (s.scene.wins.get k).epoch).toNat ∧
      step = (if d < 2 ^ 31 then d / ((s.scene.active.get k).dwell + 1) % (s.scene.active.get k).tourLen else 0) ∧
      t.scene.wins.get k = { s.scene.wins.get k with
        epoch := if d < 2 ^ 31 then (s.scene.wins.get k).epoch else s.timer.wallN
        tourSource := some ((s.scene.active.get k).tourList.get (Fin.ofNat 8 step)) } ∧
      (∀ m, m ≠ k → t.scene.wins.get m = s.scene.wins.get m) ∧
      t.scene = { s.scene with wins := t.scene.wins } ∧
      MemoryKept s t ∧ t.store.free = s.store.free ∧
      t.ring = s.ring ∧ t.cmd = s.cmd ∧ t.timer = s.timer ∧ t.src = s.src ∧ t.comp = s.comp ∧ t.cues = s.cues) ∧
  (∀ (s : State) (k : Fin 32), s.ring.phase ≠ .running ∨ (s.scene.active.get k).enabled = false ∨
    (s.scene.active.get k).tourLen = 0 → exec (.tourStep k) s = .next s)

/-! ### The panel -/

/-- R97, R113: a line start of the frame in progress: an active line is sent with its pixels, black while the frame output
state is BLACK; at a blanking line nothing is sent. In power-on reset, and at the frame's end during a tile reset, it does
nothing (log 18). R113, R115, R116: while the tile runs, a line start at the frame's end is the frame mark, in an order of the
blocks that is a free value (log 5), and then the start of line 0; and a FRAME_MARK before the frame's end is a line start of
the frame in progress (log 2). -/
def Obligations.LineStartBuilds : Prop :=
  (∀ s : State, s.ring.phase ≠ .powerOnReset →
    (s.timer.lineZeroDue = true ∨ s.timer.lineCount + 1 < s.timer.frameLen) →
    ∃ (t : State) (v : Nat), exec .lineStart s = .next t ∧
      v = (if s.timer.lineZeroDue = true then 0 else s.timer.lineCount + 1) ∧
      t.timer = { s.timer with lineCount := v, lineZeroDue := false } ∧
      (s.timer.setup.geo.ph ≤ v → t.comp = s.comp) ∧
      (v < s.timer.setup.geo.ph → t.comp.panelLine = v ∧ t.comp.panelPixels.length = s.timer.setup.geo.pw ∧
        (s.comp.output = .black → ∀ p ∈ t.comp.panelPixels, p = ⟨0, 0, 0⟩) ∧
        (s.comp.output = .show → ∀ u, u < s.timer.setup.geo.pw →
          t.comp.panelPixels[u]? = some (s.wallColour (s.timer.setup.geo.ox + u) (s.timer.setup.geo.oy + v)))) ∧
      t.comp.glyphs = s.comp.glyphs ∧ t.comp.output = s.comp.output ∧ t.comp.backlight = s.comp.backlight ∧
      t.ring = s.ring ∧ t.cmd = s.cmd ∧ t.scene = s.scene ∧ t.src = s.src ∧ StoreKept s t ∧ t.cues = s.cues ∧
      t.freeIdx = s.freeIdx) ∧
  (∀ s : State, s.ring.phase = .powerOnReset ∨
    (s.ring.phase ≠ .running ∧ s.timer.lineZeroDue = false ∧ s.timer.frameLen ≤ s.timer.lineCount + 1) →
    exec .lineStart s = .next s) ∧
  (∀ s : State, s.ring.phase = .running → s.timer.lineZeroDue = false → s.timer.frameLen ≤ s.timer.lineCount + 1 →
    ∃ u, exec (.frameMark (Config.lineMarkOrder s.freeIdx)) { s with freeIdx := s.freeIdx + 1 } = .next u ∧
      u.ring.phase = .running ∧ u.timer.lineZeroDue = true ∧ exec .lineStart s = exec .lineStart u) ∧
  (∀ (s : State) (o : MarkOrder),
    s.ring.phase ≠ .running ∨ s.timer.lineZeroDue = true ∨ s.timer.lineCount + 1 < s.timer.frameLen →
    exec (.frameMark o) s = exec .lineStart s)

/-- R99, R101 to R110, Tables 6-1 to 6-3: the frontmost window of the active list that is not HIDDEN and contains the
wall pixel supplies it: caption before border before content; with no such window the background does. A border pixel is alarm
while the window is highlighted and the flash is on, else stale while its source is STALLED or LOST, else border. Content is
the fill in a blanked or SOLID window, the bars of Table 6-3 in a PATTERN window, and in LIVE and FREEZE the store pixel of the
SHOWING buffer with its picture mark, with the fill in its place beyond the source extent, for a LOST source of loss mode FILL,
and where the source is NONE. R101 to R103: the caption area, by its rows from the top or the bottom edge and its columns,
clipped to the rectangle, and the glyph, row and column that give each of its pixels foreground or background, for the sizes and
lengths that R2 allows (the invariant of RecordsSetupAndCuesStayLegal). R104: the border is what lies within its width of an
edge. Table 6-3: the bars. -/
def Obligations.FrontmostWindowSupplies : Prop :=
  (∀ (s : State) (x y : Nat) (front back : List (Fin 32)) (n : Fin 32) (r : WinRec) (feed : Option (Fin 32)),
    s.scene.activeList = front ++ n :: back → r = s.scene.active.get n →
    r.mode ≠ .hidden → r.contains x y = true →
    (∀ m ∈ front, (s.scene.active.get m).mode = .hidden ∨ (s.scene.active.get m).contains x y = false) →
    feed = (if r.enabled = true ∧ 1 ≤ r.tourLen then (s.scene.wins.get n).tourSource else some r.source) →
    (r.captionAt x y = true → s.wallColour x y = r.captionColour s.comp.glyphs x y) ∧
    (r.captionAt x y = true ↔ (1 ≤ r.capLen ∧ x < r.x + 12 * r.capSize * r.capLen ∧
      (r.capPlace = .top → y < r.y + 16 * r.capSize) ∧ (r.capPlace = .bottom → r.y + r.h ≤ y + 16 * r.capSize))) ∧
    (r.borderAt x y = true ↔ (1 ≤ r.borderWidth ∧
      (x < r.x + r.borderWidth ∨ r.x + r.w ≤ x + r.borderWidth ∨
        y < r.y + r.borderWidth ∨ r.y + r.h ≤ y + r.borderWidth))) ∧
    (r.captionAt x y = true → 1 ≤ r.capSize → r.capLen ≤ 32 →
      ∃ (g : Fin 32) (col dx : Nat) (row : Fin 16) (dy : Nat), g.val < r.capLen ∧ col < 12 ∧ dx < r.capSize ∧ dy < r.capSize ∧
        x = r.x + (12 * g.val + col) * r.capSize + dx ∧
        (r.capPlace = .top → y = r.y + row.val * r.capSize + dy) ∧
        (r.capPlace = .bottom → y + 16 * r.capSize = r.y + r.h + row.val * r.capSize + dy) ∧
        s.wallColour x y = if ((s.comp.glyphs.get (r.capText.get g)).get row).getLsbD (11 - col) = true
          then r.capFg else r.capBg) ∧
    (r.captionAt x y = false → r.borderAt x y = true →
      s.wallColour x y =
        if (s.scene.wins.get n).highlight ≠ .off ∧ s.timer.wallN.toNat / 2 ^ s.timer.setup.flash % 2 = 0 then r.alarm
        else if ∃ k, feed = some k ∧ ((s.src.states.get k).state = .stalled ∨ (s.src.states.get k).state = .lost)
          then r.stale
        else r.border) ∧
    (r.captionAt x y = false → r.borderAt x y = false →
      ((s.scene.wins.get n).blank ≠ .off ∨ r.mode = .solid → s.wallColour x y = r.fill) ∧
      ((s.scene.wins.get n).blank = .off → r.mode = .pattern →
        s.wallColour x y = barColour (8 * (x - r.x) / r.w)) ∧
      ((s.scene.wins.get n).blank = .off → r.mode = .live ∨ r.mode = .freeze →
        (feed = none ∨ (∀ b ∈ (s.store.wins.get n).bufs, b.role = .showing → b.mark = false) →
          s.wallColour x y = r.fill) ∧
        (∀ (k : Fin 32) (v : VisRect) (b : Buffer) (p : Nat × Nat), feed = some k →
          visibleRect s.timer.setup.geo r = some v → (s.store.wins.get n).bufs.filter (fun b => b.role = .showing) = [b] →
          b.mark = true → p = mapPixel r (effectiveCrop r (s.src.records.get k)) (x - r.x) (y - r.y) →
          s.wallColour x y =
            if (s.src.records.get k).sw ≤ p.1 ∨ (s.src.records.get k).sh ≤ p.2 ∨
                ((s.src.states.get k).state = .lost ∧ r.loss = .fill) then r.fill
            else (s.store.mem.readStore b.pages ((y - v.y0) * v.w + (x - v.x0))).getD r.fill)))) ∧
  (∀ (s : State) (x y : Nat),
    (∀ m ∈ s.scene.activeList, (s.scene.active.get m).mode = .hidden ∨ (s.scene.active.get m).contains x y = false) →
    s.wallColour x y = s.timer.setup.background) ∧
  (∀ bar, bar < 8 → barColour bar =
    ⟨if bar % 4 < 2 then 767 else 0, if bar < 4 then 767 else 0, if bar % 2 = 0 then 767 else 0⟩)

/-! ### Frame memory -/

/-- R68, R91, R77: no command but an arriving STRIP cell, a frame mark (a FRAME_MARK or LINE_START at the end of a frame, R113) and
power-on reset changes a byte of frame memory. That a TILE_RESET, which a CONTROL cell carries, keeps every byte is the model's
choice (log 8). -/
def Obligations.OnlyStripsAndMarksWriteMemory : Prop :=
  ∀ (c : Instr) (s t : State), exec c s = .next t → c ≠ .powerOnReset →
    ((∀ o, c ≠ .frameMark o) ∧ c ≠ .lineStart ∨
      s.ring.phase ≠ .running ∨ s.timer.lineZeroDue = true ∨ s.timer.lineCount + 1 < s.timer.frameLen) →
    (∀ cell b, c = .cellReceived cell b → cellKind cell ≠ .strip) → MemoryKept s t

/-- R63, R64, R68, R44: a strip writes the store pixels that the map gives, in the receiving buffers of the windows it feeds: each
then reads back the colour of its source pixel in the strip; and it writes no other byte. A STRIP cell as a whole writes only
into pages that buffers hold. -/
def Obligations.StripWritesStorePixels : Prop :=
  (∀ (m : StoreManager) (src : SourceRec) (n : Fin 32) (st : Strip) (a : Nat),
    (∀ (k : Fin 32) (v : VisRect) (b : Buffer) (w : Nat × Colour) (place : Nat),
      m.pub.fedRect n k = some v → (m.wins.get k).receives st.tag = some b →
      w ∈ stripWrites (m.pub.active.get k) src v st → wordAddress? b.pages w.1 = some place →
      ¬(place ≤ a ∧ a < place + 4)) →
    (m.intake src n st).mem.readByte a = m.mem.readByte a) ∧
  (∀ (s : State) (c : Cell) (placeFirst : Bool) (t : State) (a : Nat), cellKind c = .strip →
    exec (.cellReceived c placeFirst) s = .next t →
    (∀ p ∈ s.store.heldPages, a / 65536 ≠ p.val) → t.store.mem.readByte a = s.store.mem.readByte a) ∧
  (∀ (m : StoreManager) (src : SourceRec) (n k : Fin 32) (st : Strip) (r : WinRec) (cr : Crop) (v : VisRect) (b : Buffer)
    (i j : Nat), m.mem.wf → m.heldPages.Nodup → r = m.pub.active.get k → cr = effectiveCrop r src →
    m.pub.fedRect n k = some v → (m.wins.get k).receives st.tag = some b → b.pages.length = pagesPerBuffer v →
    j ∈ fedRows r cr v st.line → i ∈ fedColumns r cr v src.sw src.format.perStrip st.segment →
    (m.intake src n st).mem.readStore b.pages ((j - (v.y0 - r.y)) * v.w + (i - (v.x0 - r.x))) =
      some (stripColour src.format st.pixels
        (cr.cx + mapOffset r.w cr.cw i - st.segment * src.format.perStrip)))

/-- R44, R91: in a memory in its form, a written store pixel is read back and every other word of the buffer is as it was;
pages given with a fill colour hold it in every word, and every byte of another page is as it was. -/
def Obligations.StorePixelsReadBack : Prop :=
  (∀ (m : Memory) (pages : List Page) (k j : Nat) (c : Colour), m.wf → pages.Nodup →
    k < 16384 * pages.length → j < 16384 * pages.length →
    (m.writeStore pages k c).readStore pages j = if j = k then some c else m.readStore pages j) ∧
  (∀ (m : Memory) (pages : List Page) (w : BitVec 32), m.wf →
    (∀ p ∈ pages, ∀ k, k < 16384 → (m.fillPages pages w).readWord (wordAddress p k) = w) ∧
    (∀ a, (∀ p ∈ pages, a / 65536 ≠ p.val) → (m.fillPages pages w).readByte a = m.readByte a))

/-! ### Picture mapping -/

/-- R36: the map on one axis, for a window of w columns and a crop of e columns: it never falls; enlarging, it rises by 0 or
1, from the crop's first column to its last, and repeats each source column floor(w / e) or ceil(w / e) times, at least once;
reducing, it rises by 1 up to ceil(e / w). A source line that feeds no row of the window writes nothing (the same map is used
for rows). -/
def Obligations.MapIsMonotonic : Prop :=
  (∀ w e i : Nat, 1 ≤ w → 1 ≤ e → mapOffset w e i ≤ mapOffset w e (i + 1)) ∧
  (∀ w e : Nat, 1 ≤ e → e ≤ w →
    (∀ i, mapOffset w e (i + 1) ≤ mapOffset w e i + 1) ∧ mapOffset w e 0 = 0 ∧ mapOffset w e (w - 1) = e - 1 ∧
    ∀ t, t < e →
      (∃ i, i < w ∧ mapOffset w e i = t) ∧
      (((List.range w).countP fun i => decide (mapOffset w e i = t)) = w / e ∨
        ((List.range w).countP fun i => decide (mapOffset w e i = t)) = (w + e - 1) / e)) ∧
  (∀ w e i : Nat, 1 ≤ w → w < e →
    mapOffset w e i + 1 ≤ mapOffset w e (i + 1) ∧ mapOffset w e (i + 1) ≤ mapOffset w e i + (e + w - 1) / w) ∧
  (∀ (r : WinRec) (src : SourceRec) (v : VisRect) (st : Strip), 1 ≤ r.h → 1 ≤ (effectiveCrop r src).ch →
    (∀ j, j < r.h → (effectiveCrop r src).cy + mapOffset r.h (effectiveCrop r src).ch j ≠ st.line) →
    v.y0 - r.y + v.h ≤ r.h → stripWrites r src v st = [])

/-- R37, R66, R67, R44: first(t) is the smallest window offset whose source offset is t or more, and first(e) = w; the rows
and columns that a strip feeds are exactly the window offsets of the visible rectangle that the forward map takes to the
strip's line and columns; every word a strip writes lies inside the store. -/
def Obligations.IntakeTakesWhatTheMapGives : Prop :=
  (∀ w e t i : Nat, 1 ≤ w → 1 ≤ e → (t ≤ mapOffset w e i ↔ firstOffset w e t ≤ i)) ∧
  (∀ w e : Nat, 1 ≤ w → 1 ≤ e → firstOffset w e 0 = 0 ∧ firstOffset w e e = w) ∧
  (∀ (r : WinRec) (c : Crop) (v : VisRect) (line j : Nat), 1 ≤ r.h → 1 ≤ c.ch →
    (j ∈ fedRows r c v line ↔
      v.y0 - r.y ≤ j ∧ j < v.y0 - r.y + v.h ∧ line < c.cy + c.ch ∧ c.cy + mapOffset r.h c.ch j = line)) ∧
  (∀ (r : WinRec) (c : Crop) (v : VisRect) (sw per seg i : Nat), 1 ≤ r.w → 1 ≤ c.cw →
    (i ∈ fedColumns r c v sw per seg ↔
      v.x0 - r.x ≤ i ∧ i < v.x0 - r.x + v.w ∧ seg * per ≤ c.cx + mapOffset r.w c.cw i ∧
      c.cx + mapOffset r.w c.cw i < seg * per + per ∧ c.cx + mapOffset r.w c.cw i < sw ∧
      c.cx + mapOffset r.w c.cw i < c.cx + c.cw)) ∧
  (∀ (r : WinRec) (src : SourceRec) (v : VisRect) (st : Strip), ∀ w ∈ stripWrites r src v st, w.1 < v.w * v.h)

/-- R43: the widening of an 8-bit component, 0 to 0 and 255 to 1023, strictly increasing, with its top two bits repeated in
its lowest two; RGB10 taken as it stands without its pad bits; MONO8 in all three components; the spare bits of the store
pixel 0; and Table 2-2. -/
def Obligations.ColourWidening : Prop :=
  (∀ v : Byte, (widen8 v).toNat = 4 * v.toNat + v.toNat / 64) ∧ widen8 0 = 0 ∧ widen8 255 = 1023 ∧
  (∀ u v : Byte, u.toNat < v.toNat → (widen8 u).toNat < (widen8 v).toNat) ∧
  (∀ v : Byte, (widen8 v).getLsbD 0 = v.getLsbD 6 ∧ (widen8 v).getLsbD 1 = v.getLsbD 7) ∧
  (widen8 63 = 252 ∧ widen8 64 = 257 ∧ widen8 128 = 514 ∧ widen8 192 = 771 ∧ widen8 200 = 803) ∧
  (∀ (l : List Byte) (k : Nat), stripColour .rgb10 l k = Colour.ofWord (BitVec.ofNat 32 (field l (4 * k) 4))) ∧
  (∀ w : BitVec 32, Colour.ofWord w = Colour.ofWord (w &&& 0x3FFFFFFF)) ∧
  (∀ (l : List Byte) (k : Nat), stripColour .rgb8 l k =
    ⟨widen8 (byteAt l (3 * k)), widen8 (byteAt l (3 * k + 1)), widen8 (byteAt l (3 * k + 2))⟩) ∧
  (∀ (l : List Byte) (k : Nat), stripColour .mono8 l k =
    ⟨widen8 (byteAt l k), widen8 (byteAt l k), widen8 (byteAt l k)⟩) ∧
  (∀ c : Colour, c.word.getLsbD 30 = false ∧ c.word.getLsbD 31 = false ∧ Colour.ofWord c.word = c)

/-! ### What holds at every moment -/

/-- The invariants below hold at reset. -/
def Obligations.InvariantsAtReset : Prop :=
  RingInRange State.reset ∧ TimerInRange State.reset ∧ CountsInRange State.reset ∧ WindowRecordsLegal State.reset ∧
  SourceRecordsLegal State.reset ∧ SetupLegal State.reset ∧ CuesLegal State.reset ∧ ListsLegal State.reset ∧
  PagesAccounted State.reset ∧ RolesLegal State.reset ∧ BuffersSized State.reset ∧ MemoryCanonical State.reset ∧
  QueueInOrder State.reset

/-- R148, R143, R149, R152, R162: every step keeps the reply queue at 8 cells at most, the run count in its range for the link
state, the life count in 8 bits, the link counters in 16, and the address at 100 at most. R113, R115 to R117, R122, R55, R58,
R59, R92, R93: it keeps the counts of the Frame Timer, the sources and the windows, and the trim, in their ranges, the line in
progress within its frame, and the frame within V - 8 to V + 8 lines; the premise SetupLegal is the invariant of
RecordsSetupAndCuesStayLegal. -/
def Obligations.RangesKept : Prop :=
  ∀ s t : State, step s = .next t →
    (RingInRange s → RingInRange t) ∧
    (TimerInRange s → CountsInRange s → SetupLegal s → TimerInRange t ∧ CountsInRange t)

/-- R2, R46: every step keeps every window record of the shadow table, the active table and the presets, and every source
record, legal. R123, R127, R130: it keeps the setup in force and its pending copy legal, the queue within the capacity of both,
and every cue of the queue legal. R128, R131 to R133: it keeps the queue in order of distance, with every target ahead of N. -/
def Obligations.RecordsSetupAndCuesStayLegal : Prop :=
  ∀ s t : State, step s = .next t →
    (WindowRecordsLegal s → SourceRecordsLegal s → WindowRecordsLegal t ∧ SourceRecordsLegal t) ∧
    (SetupLegal s → CuesLegal s → SetupLegal t ∧ CuesLegal t) ∧
    (CuesLegal s → QueueInOrder s → QueueInOrder t)

/-- R6, R7, R8, R10, R14, R16, R17, R25: every step keeps each stacking list the list of its table, and every preset sound. -/
def Obligations.ListsStayLegal : Prop :=
  ∀ s t : State, ListsLegal s → step s = .next t → ListsLegal t

/-- R77: every step keeps each page on the free list or in exactly one buffer. R78, R44: it keeps the roles of every window's
buffers legal, and each buffer of the size of its window. Log 8: it keeps the frame memory in its canonical form. -/
def Obligations.StoresStayLegal : Prop :=
  ∀ s t : State, step s = .next t →
    (PagesAccounted s → PagesAccounted t) ∧
    (RolesLegal s → BuffersSized s → RolesLegal t ∧ BuffersSized t) ∧
    (MemoryCanonical s → MemoryCanonical t)
end

