-- ==== Sys2Proof/Laws/Check.lean ====
section
/-! SUPPORT. The check word of R142 in a form that stays shallow when it is evaluated: the register is brought to a numeral
before the next byte is taken. The kernel can decide whether a written-out cell is good by it. -/

namespace Sys2Proof.Machine

/-- `k n`, with `n` brought to a numeral first. -/
def strictly (n : Nat) (k : Nat → BitVec 16) : BitVec 16 :=
  match n with
  | 0 => k 0
  | m + 1 => k (m + 1)

theorem strictly_eq (n : Nat) (k : Nat → BitVec 16) : strictly n k = k n := by cases n <;> rfl

/-- R142: the check of a run of bytes from a register. -/
def checkFrom : List Byte → Nat → BitVec 16
  | [], r => BitVec.ofNat 16 r
  | b :: l, r => strictly (checkByte (BitVec.ofNat 16 r) b).toNat (checkFrom l)

theorem foldl_checkByte (l : List Byte) (r : BitVec 16) : l.foldl checkByte r = checkFrom l r.toNat := by
  induction l generalizing r with
  | nil => simp [checkFrom]
  | cons b l ih => simp [checkFrom, strictly_eq, ih]

theorem checkWord_eq (l : List Byte) : checkWord l = checkFrom l 65535 := foldl_checkByte l _

theorem cellGood_eq (c : Cell) :
    cellGood c = decide ((checkFrom (c.take Config.bodyBytes) 65535).toNat = field c Config.bodyBytes 2) := by
  rw [cellGood, checkWord_eq]

end Sys2Proof.Machine
end

