-- ==== Sys2Proof/Laws/Memory.lean ====
section
/-! SUPPORT. Frame memory: a write is read back, leaves every other byte as it was, and keeps the canonical form. -/

namespace Sys2Proof.Machine

/-! ### One byte -/

/-- A write leaves every other byte as it was, whatever the list. -/
theorem Memory.readByte_writeByte_of_ne (m : Memory) {a b : Nat} (v : Byte) (h : b ≠ a) :
    (m.writeByte a v).readByte b = m.readByte b := by
  induction m with
  | nil =>
    unfold Memory.writeByte
    split
    · rfl
    · simp [Memory.readByte, Ne.symm h]
  | cons c rest ih =>
    obtain ⟨k, w⟩ := c
    unfold Memory.writeByte
    split
    · split
      · rfl
      · simp [Memory.readByte, Ne.symm h]
    · split
      · subst_vars
        split
        · simp [Memory.readByte, Ne.symm h]
        · simp [Memory.readByte, Ne.symm h]
      · simp only [Memory.readByte]
        split
        · rfl
        · exact ih

/-- An address below every listed one reads the blank byte. -/
theorem Memory.readByte_of_lt (m : Memory) (a : Nat) (h : ∀ c ∈ m, a < c.1) : m.readByte a = Config.blankByte := by
  induction m with
  | nil => rfl
  | cons c rest ih =>
    obtain ⟨k, w⟩ := c
    have hk : a < k := h (k, w) (by simp)
    rw [Memory.readByte, if_neg (by omega)]
    exact ih fun c hc => h c (by simp [hc])

/-- In a rising list, a written byte is read back. -/
theorem Memory.readByte_writeByte_self (m : Memory) (a : Nat) (v : Byte)
    (hm : m.Pairwise (fun c d => c.1 < d.1)) : (m.writeByte a v).readByte a = v := by
  induction m with
  | nil =>
    unfold Memory.writeByte
    split
    · subst_vars; rfl
    · simp [Memory.readByte]
  | cons c rest ih =>
    obtain ⟨k, w⟩ := c
    rw [List.pairwise_cons] at hm
    unfold Memory.writeByte
    split
    · split
      · subst_vars
        apply Memory.readByte_of_lt
        intro c hc
        rcases List.mem_cons.mp hc with rfl | hc
        · assumption
        · exact Nat.lt_trans ‹_› (hm.1 c hc)
      · simp [Memory.readByte]
    · split
      · subst_vars
        split
        · subst_vars
          exact Memory.readByte_of_lt rest _ fun c hc => hm.1 c hc
        · simp [Memory.readByte]
      · rw [Memory.readByte, if_neg (by omega)]
        exact ih hm.2

/-- Reading any byte after a write. -/
theorem Memory.readByte_writeByte (m : Memory) (a b : Nat) (v : Byte) (hm : m.wf) :
    (m.writeByte a v).readByte b = if b = a then v else m.readByte b := by
  split <;> rename_i h
  · subst h; exact Memory.readByte_writeByte_self m _ v hm.1
  · exact Memory.readByte_writeByte_of_ne m v h

/-- Every entry after a write is an entry from before or the one written. -/
theorem Memory.mem_writeByte (m : Memory) (a : Nat) (v : Byte) (c : Host.Cell) (h : c ∈ m.writeByte a v) :
    c ∈ m ∨ (c = (a, v) ∧ v ≠ Config.blankByte) := by
  induction m with
  | nil =>
    unfold Memory.writeByte at h
    split at h
    · simp at h
    · simp at h; exact .inr ⟨h, ‹_›⟩
  | cons d rest ih =>
    obtain ⟨k, w⟩ := d
    unfold Memory.writeByte at h
    split at h
    · split at h
      · exact .inl h
      · rcases List.mem_cons.mp h with rfl | h
        · exact .inr ⟨rfl, ‹_›⟩
        · exact .inl h
    · split at h
      · split at h
        · exact .inl (List.mem_cons_of_mem _ h)
        · rcases List.mem_cons.mp h with rfl | h
          · exact .inr ⟨rfl, ‹_›⟩
          · exact .inl (List.mem_cons_of_mem _ h)
      · rcases List.mem_cons.mp h with rfl | h
        · exact .inl (by simp)
        · rcases ih h with h | h
          · exact .inl (List.mem_cons_of_mem _ h)
          · exact .inr h

/-- A write inside the memory keeps the canonical form. -/
theorem Memory.wf_writeByte (m : Memory) (a : Nat) (v : Byte) (hm : m.wf) (ha : a < Memory.size) :
    (m.writeByte a v).wf := by
  refine ⟨?_, ?_⟩
  · have hp := hm.1
    clear hm
    induction m with
    | nil =>
      unfold Memory.writeByte
      split <;> simp
    | cons c rest ih =>
      obtain ⟨k, w⟩ := c
      have hp' := hp
      rw [List.pairwise_cons] at hp
      unfold Memory.writeByte
      split
      · split
        · exact hp'
        · rw [List.pairwise_cons]
          refine ⟨fun c hc => ?_, hp'⟩
          rcases List.mem_cons.mp hc with rfl | hc
          · assumption
          · exact Nat.lt_trans ‹_› (hp.1 c hc)
      · split
        · subst_vars
          split
          · exact hp.2
          · rw [List.pairwise_cons]
            exact ⟨fun c hc => hp.1 c hc, hp.2⟩
        · rw [List.pairwise_cons]
          refine ⟨fun c hc => ?_, ih hp.2⟩
          rcases Memory.mem_writeByte rest a v c hc with hc | ⟨rfl, -⟩
          · exact hp.1 c hc
          · show k < a; omega
  · intro c hc
    rcases Memory.mem_writeByte m a v c hc with hc | ⟨rfl, hv⟩
    · exact hm.2 c hc
    · exact ⟨hv, ha⟩

/-! ### Runs of bytes -/

theorem Memory.wf_writeBytes (l : List Byte) (m : Memory) (a : Nat) (hm : m.wf) (ha : a + l.length ≤ Memory.size) :
    (m.writeBytes a l).wf := by
  induction l generalizing m a with
  | nil => exact hm
  | cons b bs ih =>
    simp only [List.length_cons] at ha
    exact ih _ _ (Memory.wf_writeByte m a b hm (by omega)) (by omega)

theorem Memory.readByte_writeBytes_of_not_mem (l : List Byte) (m : Memory) (a b : Nat)
    (h : b < a ∨ a + l.length ≤ b) : (m.writeBytes a l).readByte b = m.readByte b := by
  induction l generalizing m a with
  | nil => rfl
  | cons v vs ih =>
    simp only [List.length_cons] at h
    rw [Memory.writeBytes, ih _ _ (by omega), Memory.readByte_writeByte_of_ne _ _ (by omega)]

theorem wordBytes_length (w : BitVec 32) : (wordBytes w).length = 4 := rfl

/-- A word written outside of an address leaves it as it was. -/
theorem Memory.readByte_writeWord_of_not_mem (m : Memory) (a b : Nat) (w : BitVec 32) (h : b < a ∨ a + 4 ≤ b) :
    (m.writeWord a w).readByte b = m.readByte b :=
  Memory.readByte_writeBytes_of_not_mem _ _ _ _ (by rw [wordBytes_length]; exact h)

/-- The four bytes of a word make the word. -/
theorem wordBytes_append (w : BitVec 32) :
    w.extractLsb' 24 8 ++ w.extractLsb' 16 8 ++ w.extractLsb' 8 8 ++ w.extractLsb' 0 8 = w := by
  apply BitVec.eq_of_getLsbD_eq
  intro i hi
  simp only [BitVec.getLsbD_append, BitVec.getLsbD_extractLsb']
  by_cases h1 : i < 8
  · simp [h1]
  · by_cases h2 : i - 8 < 8
    · have : 8 + (i - 8) = i := by omega
      simp [h1, h2, this]
    · by_cases h3 : i - 8 - 8 < 8
      · have : 16 + (i - 8 - 8) = i := by omega
        simp [h1, h2, h3, this]
      · have : 24 + (i - 8 - 8 - 8) = i := by omega
        have h4 : i - 8 - 8 - 8 < 8 := by omega
        simp [h1, h2, h3, h4, this]

/-- A written word is read back. -/
theorem Memory.readWord_writeWord_self (m : Memory) (a : Nat) (w : BitVec 32) (hm : m.wf) (ha : a + 4 ≤ Memory.size) :
    (m.writeWord a w).readWord a = w := by
  have h1 := Memory.wf_writeByte m a (w.extractLsb' 24 8) hm (by omega)
  have h2 := Memory.wf_writeByte _ (a + 1) (w.extractLsb' 16 8) h1 (by omega)
  have h3 := Memory.wf_writeByte _ (a + 1 + 1) (w.extractLsb' 8 8) h2 (by omega)
  conv_rhs => rw [← wordBytes_append w]
  simp only [Memory.readWord, Memory.writeWord, wordBytes, Memory.writeBytes]
  simp [Memory.readByte_writeByte _ _ _ _ h3, Memory.readByte_writeByte _ _ _ _ h2,
    Memory.readByte_writeByte _ _ _ _ h1, Memory.readByte_writeByte _ _ _ _ hm,
    show ¬a = a + 1 + 1 + 1 by omega, show ¬a = a + 1 + 1 by omega]

/-- A word written elsewhere leaves a word as it was. -/
theorem Memory.readWord_writeWord_of_disjoint (m : Memory) (a b : Nat) (w : BitVec 32) (h : b + 4 ≤ a ∨ a + 4 ≤ b) :
    (m.writeWord a w).readWord b = m.readWord b := by
  simp only [Memory.readWord]
  rw [Memory.readByte_writeWord_of_not_mem m a b w (by omega),
    Memory.readByte_writeWord_of_not_mem m a (b + 1) w (by omega),
    Memory.readByte_writeWord_of_not_mem m a (b + 2) w (by omega),
    Memory.readByte_writeWord_of_not_mem m a (b + 3) w (by omega)]

/-! ### Words of pages -/

/-- Every word of a page lies inside the page. -/
theorem wordAddress_bounds (p : Page) (k : Nat) :
    p.val * Config.pageBytes ≤ wordAddress p k ∧
      wordAddress p k + 4 ≤ p.val * Config.pageBytes + Config.pageBytes := by
  have := Nat.mod_lt k (show 0 < Config.pagePixels by decide)
  simp only [wordAddress, Config.pageBytes, Config.pagePixels] at *
  omega

theorem wordAddress_lt_size (p : Page) (k : Nat) : wordAddress p k + 4 ≤ Memory.size := by
  have h := (wordAddress_bounds p k).2
  have := p.isLt
  simp only [Memory.size, Config.pageBytes, Config.pageCount] at *
  omega

theorem wordAddress?_bound (pages : List Page) (k a : Nat) (h : wordAddress? pages k = some a) :
    a + 4 ≤ Memory.size := by
  unfold wordAddress? at h
  cases hp : pages[k / Config.pagePixels]? with
  | none => simp [hp] at h
  | some p => simp [hp] at h; subst h; exact wordAddress_lt_size p _

/-- A store pixel write keeps the canonical form. -/
theorem Memory.wf_writeStore (m : Memory) (pages : List Page) (k : Nat) (c : Colour) (hm : m.wf) :
    (m.writeStore pages k c).wf := by
  unfold Memory.writeStore
  split
  · rename_i a ha
    exact Memory.wf_writeBytes _ m a hm (by rw [wordBytes_length]; exact wordAddress?_bound pages k a ha)
  · exact hm

theorem Memory.wf_writePixels (l : List (Nat × Colour)) (m : Memory) (pages : List Page) (hm : m.wf) :
    (m.writePixels pages l).wf := by
  unfold Memory.writePixels
  induction l generalizing m with
  | nil => exact hm
  | cons w ws ih => exact ih _ (Memory.wf_writeStore m pages w.1 w.2 hm)

/-! ### Filled pages -/

theorem mem_pageBlock (p : Page) (w : BitVec 32) (c : Host.Cell) (h : c ∈ pageBlock p w) :
    c.2 ≠ Config.blankByte ∧ p.val * Config.pageBytes ≤ c.1 ∧ c.1 < p.val * Config.pageBytes + Config.pageBytes := by
  unfold pageBlock at h
  split at h
  · simp at h
  · rw [List.mem_filter, List.mem_flatMap] at h
    obtain ⟨⟨k, -, hk⟩, hc⟩ := h
    rw [List.mem_map] at hk
    obtain ⟨j, hj, rfl⟩ := hk
    rw [List.mem_range] at hj
    have hb := wordAddress_bounds p k
    exact ⟨by simpa using hc, by show _ ≤ _ + j; omega, by show _ + j < _; omega⟩

theorem pairwise_pageBlock (p : Page) (w : BitVec 32) : (pageBlock p w).Pairwise (fun c d => c.1 < d.1) := by
  unfold pageBlock
  split
  · exact List.Pairwise.nil
  · apply List.Pairwise.filter
    rw [List.pairwise_flatMap]
    refine ⟨fun k _ => ?_, ?_⟩
    · rw [List.pairwise_map]
      exact List.pairwise_lt_range.imp fun h => Nat.add_lt_add_left h _
    · refine List.Pairwise.imp_of_mem ?_ List.pairwise_lt_range
      intro k l hk hl hkl c hc d hd
      rw [List.mem_map] at hc hd
      obtain ⟨i, hi, rfl⟩ := hc
      obtain ⟨j, hj, rfl⟩ := hd
      rw [List.mem_range] at hk hl hi hj
      show wordAddress p k + i < wordAddress p l + j
      simp only [wordAddress, Nat.mod_eq_of_lt hk, Nat.mod_eq_of_lt hl]
      omega

/-- Filling a page keeps the canonical form. -/
theorem Memory.wf_fillPage (m : Memory) (p : Page) (w : BitVec 32) (hm : m.wf) : (m.fillPage p w).wf := by
  have hsize : p.val * Config.pageBytes + Config.pageBytes ≤ Memory.size := by
    have := p.isLt
    simp only [Memory.size, Config.pageBytes, Config.pageCount]
    omega
  unfold Memory.fillPage
  refine ⟨?_, ?_⟩
  · rw [List.pairwise_append, List.pairwise_append]
    refine ⟨hm.1.filter _, ⟨pairwise_pageBlock p w, hm.1.filter _, ?_⟩, ?_⟩
    · intro c hc d hd
      have h1 := (mem_pageBlock p w c hc).2.2
      have h2 := (List.mem_filter.mp hd).2
      simp only [decide_eq_true_eq] at h2
      omega
    · intro c hc d hd
      have h1 := (List.mem_filter.mp hc).2
      simp only [decide_eq_true_eq] at h1
      rcases List.mem_append.mp hd with hd | hd
      · have h2 := (mem_pageBlock p w d hd).2.1
        omega
      · have h2 := (List.mem_filter.mp hd).2
        simp only [decide_eq_true_eq] at h2
        omega
  · intro c hc
    rcases List.mem_append.mp hc with hc | hc
    · exact hm.2 c (List.mem_filter.mp hc).1
    · rcases List.mem_append.mp hc with hc | hc
      · have h := mem_pageBlock p w c hc
        exact ⟨h.1, by omega⟩
      · exact hm.2 c (List.mem_filter.mp hc).1

theorem Memory.wf_fillPages (ps : List Page) (m : Memory) (w : BitVec 32) (hm : m.wf) : (m.fillPages ps w).wf := by
  unfold Memory.fillPages
  induction ps generalizing m with
  | nil => exact hm
  | cons p ps ih => exact ih _ (Memory.wf_fillPage m p w hm)

/-- The memory right after reset has the form. -/
theorem Memory.wf_nil : Memory.wf [] := ⟨List.Pairwise.nil, fun _ h => absurd h (List.not_mem_nil)⟩

end Sys2Proof.Machine
end

