-- ==== Sys2Proof/Laws/State.lean ====
section
/-! SUPPORT. For each named update of the state: the blocks it leaves as they were (one simp lemma for each operation, a
conjunction of one equation for each block), and what a latch does. -/

namespace Sys2Proof.Machine

/-! ### Latches and offers -/

@[simp] theorem noteEvent_keeps (k : EventKind) (s : State) :
    (noteEvent k s).ring = s.ring ∧ (noteEvent k s).timer = s.timer ∧ (noteEvent k s).scene = s.scene ∧
    (noteEvent k s).src = s.src ∧ (noteEvent k s).store = s.store ∧ (noteEvent k s).comp = s.comp ∧
    (noteEvent k s).cues = s.cues ∧ (noteEvent k s).freeIdx = s.freeIdx ∧ (noteEvent k s).pending = s.pending := by
  simp [noteEvent]

@[simp] theorem offerStatus_keeps (s : State) :
    (offerStatus s).cmd = s.cmd ∧ (offerStatus s).timer = s.timer ∧ (offerStatus s).scene = s.scene ∧
    (offerStatus s).src = s.src ∧ (offerStatus s).store = s.store ∧ (offerStatus s).comp = s.comp ∧
    (offerStatus s).cues = s.cues ∧ (offerStatus s).freeIdx = s.freeIdx ∧ (offerStatus s).pending = s.pending := by
  simp [offerStatus]

@[simp] theorem latch_keeps (k : EventKind) (s : State) :
    (latch k s).timer = s.timer ∧ (latch k s).scene = s.scene ∧ (latch k s).src = s.src ∧
    (latch k s).store = s.store ∧ (latch k s).comp = s.comp ∧ (latch k s).cues = s.cues ∧
    (latch k s).freeIdx = s.freeIdx ∧ (latch k s).pending = s.pending := by
  unfold latch
  repeat' split
  all_goals simp

/-- What a latch changes: the kind enters the attention set, and a STATUS cell is built when the event mask holds it. -/
theorem latch_eq (k : EventKind) (s : State) :
    latch k s = { s with
      cmd := { s.cmd with attention := s.cmd.attention ||| k.bit }
      ring := { s.ring with
        slot := if kindIn s.timer.setup.eventMask k then some (statusBody (noteEvent k s)) else s.ring.slot } } := by
  by_cases h : kindIn s.timer.setup.eventMask k <;> simp [latch, noteEvent, offerStatus, h]

@[simp] theorem latch_attention (k : EventKind) (s : State) :
    (latch k s).cmd.attention = s.cmd.attention ||| k.bit := by rw [latch_eq]

/-- A latch keeps everything of the Ring Port but the status slot. -/
@[simp] theorem latch_ring (k : EventKind) (s : State) :
    (latch k s).ring.phase = s.ring.phase ∧ (latch k s).ring.signal = s.ring.signal ∧
    (latch k s).ring.signalHeld = s.ring.signalHeld ∧ (latch k s).ring.resetReply = s.ring.resetReply ∧
    (latch k s).ring.link = s.ring.link ∧ (latch k s).ring.runCount = s.ring.runCount ∧
    (latch k s).ring.replies = s.ring.replies ∧ (latch k s).ring.life = s.ring.life ∧
    (latch k s).ring.cellsReceived = s.ring.cellsReceived ∧ (latch k s).ring.checkErrors = s.ring.checkErrors ∧
    (latch k s).ring.alignLosses = s.ring.alignLosses ∧ (latch k s).ring.controlTaken = s.ring.controlTaken ∧
    (latch k s).ring.repliesDropped = s.ring.repliesDropped ∧ (latch k s).ring.place = s.ring.place ∧
    (latch k s).ring.outbound = s.ring.outbound := by
  simp [latch_eq]

/-- A latch keeps everything of the Command Unit but the attention set. -/
@[simp] theorem latch_cmd (k : EventKind) (s : State) :
    (latch k s).cmd.address = s.cmd.address ∧ (latch k s).cmd.origins = s.cmd.origins ∧
    (latch k s).cmd.intervalCount = s.cmd.intervalCount := by
  simp [latch_eq]

@[simp] theorem offerReply_keeps (body : List Byte) (s : State) :
    (offerReply body s).timer = s.timer ∧ (offerReply body s).scene = s.scene ∧ (offerReply body s).src = s.src ∧
    (offerReply body s).store = s.store ∧ (offerReply body s).comp = s.comp ∧ (offerReply body s).cues = s.cues ∧
    (offerReply body s).freeIdx = s.freeIdx ∧ (offerReply body s).pending = s.pending := by
  unfold offerReply
  repeat' split
  all_goals simp

/-! ### The Ring Port -/

@[simp] theorem mapRing_keeps (f : Ring → Ring) (s : State) :
    (s.mapRing f).cmd = s.cmd ∧ (s.mapRing f).timer = s.timer ∧ (s.mapRing f).scene = s.scene ∧
    (s.mapRing f).src = s.src ∧ (s.mapRing f).store = s.store ∧ (s.mapRing f).comp = s.comp ∧
    (s.mapRing f).cues = s.cues ∧ (s.mapRing f).freeIdx = s.freeIdx ∧ (s.mapRing f).pending = s.pending := by
  simp [State.mapRing]

@[simp] theorem changeLink_keeps (l : LinkState) (s : State) :
    (s.changeLink l).timer = s.timer ∧ (s.changeLink l).scene = s.scene ∧ (s.changeLink l).src = s.src ∧
    (s.changeLink l).store = s.store ∧ (s.changeLink l).comp = s.comp ∧ (s.changeLink l).cues = s.cues ∧
    (s.changeLink l).freeIdx = s.freeIdx ∧ (s.changeLink l).pending = s.pending := by
  simp [State.changeLink]

@[simp] theorem linkAligned_keeps (s : State) :
    (s.linkAligned).timer = s.timer ∧ (s.linkAligned).scene = s.scene ∧ (s.linkAligned).src = s.src ∧
    (s.linkAligned).store = s.store ∧ (s.linkAligned).comp = s.comp ∧ (s.linkAligned).cues = s.cues ∧
    (s.linkAligned).freeIdx = s.freeIdx ∧ (s.linkAligned).pending = s.pending := by
  unfold State.linkAligned
  repeat' split
  all_goals simp

@[simp] theorem alignmentLost_keeps (s : State) :
    (s.alignmentLost).timer = s.timer ∧ (s.alignmentLost).scene = s.scene ∧ (s.alignmentLost).src = s.src ∧
    (s.alignmentLost).store = s.store ∧ (s.alignmentLost).comp = s.comp ∧ (s.alignmentLost).cues = s.cues ∧
    (s.alignmentLost).freeIdx = s.freeIdx ∧ (s.alignmentLost).pending = s.pending := by
  unfold State.alignmentLost
  repeat' split
  all_goals simp

@[simp] theorem signalPresent_keeps (s : State) :
    (s.signalPresent).timer = s.timer ∧ (s.signalPresent).scene = s.scene ∧ (s.signalPresent).src = s.src ∧
    (s.signalPresent).store = s.store ∧ (s.signalPresent).comp = s.comp ∧ (s.signalPresent).cues = s.cues ∧
    (s.signalPresent).freeIdx = s.freeIdx ∧ (s.signalPresent).pending = s.pending := by
  unfold State.signalPresent
  repeat' split
  all_goals simp

@[simp] theorem signalLost_keeps (s : State) :
    (s.signalLost).timer = s.timer ∧ (s.signalLost).scene = s.scene ∧ (s.signalLost).src = s.src ∧
    (s.signalLost).store = s.store ∧ (s.signalLost).comp = s.comp ∧ (s.signalLost).cues = s.cues ∧
    (s.signalLost).freeIdx = s.freeIdx ∧ (s.signalLost).pending = s.pending := by
  unfold State.signalLost
  repeat' split
  all_goals simp

@[simp] theorem settleLink_keeps (s : State) :
    (s.settleLink).timer = s.timer ∧ (s.settleLink).scene = s.scene ∧ (s.settleLink).src = s.src ∧
    (s.settleLink).store = s.store ∧ (s.settleLink).comp = s.comp ∧ (s.settleLink).cues = s.cues ∧
    (s.settleLink).freeIdx = s.freeIdx ∧ (s.settleLink).pending = s.pending := by
  unfold State.settleLink
  repeat' split
  all_goals simp

@[simp] theorem forward_keeps (c : Cell) (s : State) :
    (s.forward c).cmd = s.cmd ∧ (s.forward c).timer = s.timer ∧ (s.forward c).scene = s.scene ∧
    (s.forward c).src = s.src ∧ (s.forward c).store = s.store ∧ (s.forward c).comp = s.comp ∧
    (s.forward c).cues = s.cues ∧ (s.forward c).freeIdx = s.freeIdx ∧ (s.forward c).pending = s.pending := by
  simp [State.forward]

@[simp] theorem bypass_keeps (c : Cell) (s : State) :
    (s.bypass c).cmd = s.cmd ∧ (s.bypass c).timer = s.timer ∧ (s.bypass c).scene = s.scene ∧
    (s.bypass c).src = s.src ∧ (s.bypass c).store = s.store ∧ (s.bypass c).comp = s.comp ∧
    (s.bypass c).cues = s.cues ∧ (s.bypass c).freeIdx = s.freeIdx ∧ (s.bypass c).pending = s.pending := by
  unfold State.bypass
  repeat' split
  all_goals simp

@[simp] theorem receiveAligning_keeps (good placeFirst : Bool) (s : State) :
    (s.receiveAligning good placeFirst).timer = s.timer ∧ (s.receiveAligning good placeFirst).scene = s.scene ∧
    (s.receiveAligning good placeFirst).src = s.src ∧ (s.receiveAligning good placeFirst).store = s.store ∧
    (s.receiveAligning good placeFirst).comp = s.comp ∧ (s.receiveAligning good placeFirst).cues = s.cues ∧
    (s.receiveAligning good placeFirst).freeIdx = s.freeIdx ∧
    (s.receiveAligning good placeFirst).pending = s.pending := by
  simp [State.receiveAligning]

@[simp] theorem receiveBad_keeps (placeFirst : Bool) (s : State) :
    (s.receiveBad placeFirst).timer = s.timer ∧ (s.receiveBad placeFirst).scene = s.scene ∧
    (s.receiveBad placeFirst).src = s.src ∧ (s.receiveBad placeFirst).store = s.store ∧
    (s.receiveBad placeFirst).comp = s.comp ∧ (s.receiveBad placeFirst).cues = s.cues ∧
    (s.receiveBad placeFirst).freeIdx = s.freeIdx ∧ (s.receiveBad placeFirst).pending = s.pending := by
  simp [State.receiveBad]

@[simp] theorem offerResetReply_keeps (s : State) :
    (s.offerResetReply).timer = s.timer ∧ (s.offerResetReply).scene = s.scene ∧ (s.offerResetReply).src = s.src ∧
    (s.offerResetReply).store = s.store ∧ (s.offerResetReply).comp = s.comp ∧ (s.offerResetReply).cues = s.cues ∧
    (s.offerResetReply).freeIdx = s.freeIdx ∧ (s.offerResetReply).pending = s.pending := by
  unfold State.offerResetReply
  repeat' split
  all_goals simp

@[simp] theorem endBypass_keeps (s : State) :
    (s.endBypass).cmd = s.cmd ∧ (s.endBypass).scene = s.scene ∧ (s.endBypass).src = s.src ∧
    (s.endBypass).store = s.store ∧ (s.endBypass).comp = s.comp ∧ (s.endBypass).cues = s.cues ∧
    (s.endBypass).freeIdx = s.freeIdx ∧ (s.endBypass).pending = s.pending := by
  simp [State.endBypass]

@[simp] theorem powerOnResetEnd_keeps (s : State) :
    (s.powerOnResetEnd).scene = s.scene ∧ (s.powerOnResetEnd).src = s.src ∧ (s.powerOnResetEnd).store = s.store ∧
    (s.powerOnResetEnd).comp = s.comp ∧ (s.powerOnResetEnd).cues = s.cues ∧ (s.powerOnResetEnd).freeIdx = s.freeIdx ∧
    (s.powerOnResetEnd).pending = s.pending := by
  unfold State.powerOnResetEnd
  repeat' split
  all_goals simp

@[simp] theorem tileResetEnd_keeps (s : State) :
    (s.tileResetEnd).scene = s.scene ∧ (s.tileResetEnd).src = s.src ∧ (s.tileResetEnd).store = s.store ∧
    (s.tileResetEnd).comp = s.comp ∧ (s.tileResetEnd).cues = s.cues ∧ (s.tileResetEnd).freeIdx = s.freeIdx ∧
    (s.tileResetEnd).pending = s.pending := by
  unfold State.tileResetEnd
  repeat' split
  all_goals simp

/-! ### The Frame Timer -/

@[simp] theorem setTrim_keeps (s : State) :
    (s.setTrim).ring = s.ring ∧ (s.setTrim).cmd = s.cmd ∧ (s.setTrim).scene = s.scene ∧ (s.setTrim).src = s.src ∧
    (s.setTrim).store = s.store ∧ (s.setTrim).comp = s.comp ∧ (s.setTrim).cues = s.cues ∧
    (s.setTrim).freeIdx = s.freeIdx ∧ (s.setTrim).pending = s.pending := by
  simp [State.setTrim]

@[simp] theorem changeLock_keeps (l : LockState) (s : State) :
    (s.changeLock l).scene = s.scene ∧ (s.changeLock l).src = s.src ∧ (s.changeLock l).store = s.store ∧
    (s.changeLock l).comp = s.comp ∧ (s.changeLock l).cues = s.cues ∧ (s.changeLock l).freeIdx = s.freeIdx ∧
    (s.changeLock l).pending = s.pending := by
  simp [State.changeLock]

@[simp] theorem openGate_keeps (s : State) :
    (s.openGate).scene = s.scene ∧ (s.openGate).src = s.src ∧ (s.openGate).store = s.store ∧
    (s.openGate).comp = s.comp ∧ (s.openGate).cues = s.cues ∧ (s.openGate).freeIdx = s.freeIdx ∧
    (s.openGate).pending = s.pending := by
  unfold State.openGate
  repeat' split
  all_goals simp

@[simp] theorem enterLocked_keeps (s : State) :
    (s.enterLocked).scene = s.scene ∧ (s.enterLocked).src = s.src ∧ (s.enterLocked).store = s.store ∧
    (s.enterLocked).comp = s.comp ∧ (s.enterLocked).cues = s.cues ∧ (s.enterLocked).freeIdx = s.freeIdx ∧
    (s.enterLocked).pending = s.pending := by
  simp [State.enterLocked]

@[simp] theorem lockAcquired_keeps (s : State) :
    (s.lockAcquired).scene = s.scene ∧ (s.lockAcquired).src = s.src ∧ (s.lockAcquired).store = s.store ∧
    (s.lockAcquired).comp = s.comp ∧ (s.lockAcquired).cues = s.cues ∧ (s.lockAcquired).freeIdx = s.freeIdx ∧
    (s.lockAcquired).pending = s.pending := by
  unfold State.lockAcquired
  repeat' split
  all_goals simp

@[simp] theorem lockBadLimit_keeps (s : State) :
    (s.lockBadLimit).scene = s.scene ∧ (s.lockBadLimit).src = s.src ∧ (s.lockBadLimit).store = s.store ∧
    (s.lockBadLimit).comp = s.comp ∧ (s.lockBadLimit).cues = s.cues ∧ (s.lockBadLimit).freeIdx = s.freeIdx ∧
    (s.lockBadLimit).pending = s.pending := by
  unfold State.lockBadLimit
  repeat' split
  all_goals simp

@[simp] theorem acquireMissedLimit_keeps (s : State) :
    (s.acquireMissedLimit).scene = s.scene ∧ (s.acquireMissedLimit).src = s.src ∧
    (s.acquireMissedLimit).store = s.store ∧ (s.acquireMissedLimit).comp = s.comp ∧
    (s.acquireMissedLimit).cues = s.cues ∧ (s.acquireMissedLimit).freeIdx = s.freeIdx ∧
    (s.acquireMissedLimit).pending = s.pending := by
  unfold State.acquireMissedLimit
  repeat' split
  all_goals simp

@[simp] theorem holdoverLimit_keeps (s : State) :
    (s.holdoverLimit).scene = s.scene ∧ (s.holdoverLimit).src = s.src ∧ (s.holdoverLimit).store = s.store ∧
    (s.holdoverLimit).comp = s.comp ∧ (s.holdoverLimit).cues = s.cues ∧ (s.holdoverLimit).freeIdx = s.freeIdx ∧
    (s.holdoverLimit).pending = s.pending := by
  unfold State.holdoverLimit
  repeat' split
  all_goals simp

@[simp] theorem arriveAcquire_keeps (s : State) :
    (s.arriveAcquire).scene = s.scene ∧ (s.arriveAcquire).src = s.src ∧ (s.arriveAcquire).store = s.store ∧
    (s.arriveAcquire).comp = s.comp ∧ (s.arriveAcquire).cues = s.cues ∧ (s.arriveAcquire).freeIdx = s.freeIdx ∧
    (s.arriveAcquire).pending = s.pending := by
  unfold State.arriveAcquire
  repeat' split
  all_goals simp

@[simp] theorem arriveLocked_keeps (s : State) :
    (s.arriveLocked).scene = s.scene ∧ (s.arriveLocked).src = s.src ∧ (s.arriveLocked).store = s.store ∧
    (s.arriveLocked).comp = s.comp ∧ (s.arriveLocked).cues = s.cues ∧ (s.arriveLocked).freeIdx = s.freeIdx ∧
    (s.arriveLocked).pending = s.pending := by
  unfold State.arriveLocked
  repeat' split
  all_goals simp

@[simp] theorem arriveHoldover_keeps (s : State) :
    (s.arriveHoldover).scene = s.scene ∧ (s.arriveHoldover).src = s.src ∧ (s.arriveHoldover).store = s.store ∧
    (s.arriveHoldover).comp = s.comp ∧ (s.arriveHoldover).cues = s.cues ∧ (s.arriveHoldover).freeIdx = s.freeIdx ∧
    (s.arriveHoldover).pending = s.pending := by
  unfold State.arriveHoldover
  repeat' split
  all_goals simp

@[simp] theorem arriveLock_keeps (s : State) :
    (s.arriveLock).scene = s.scene ∧ (s.arriveLock).src = s.src ∧ (s.arriveLock).store = s.store ∧
    (s.arriveLock).comp = s.comp ∧ (s.arriveLock).cues = s.cues ∧ (s.arriveLock).freeIdx = s.freeIdx ∧
    (s.arriveLock).pending = s.pending := by
  unfold State.arriveLock
  repeat' split
  all_goals simp

@[simp] theorem syncArrival_keeps (number flags : BitVec 32) (s : State) :
    (s.syncArrival number flags).scene = s.scene ∧ (s.syncArrival number flags).src = s.src ∧
    (s.syncArrival number flags).store = s.store ∧ (s.syncArrival number flags).comp = s.comp ∧
    (s.syncArrival number flags).cues = s.cues ∧ (s.syncArrival number flags).freeIdx = s.freeIdx ∧
    (s.syncArrival number flags).pending = s.pending := by
  simp only [State.syncArrival]
  split <;> simp

@[simp] theorem markMissed_keeps (s : State) :
    (s.markMissed).scene = s.scene ∧ (s.markMissed).src = s.src ∧ (s.markMissed).store = s.store ∧
    (s.markMissed).comp = s.comp ∧ (s.markMissed).cues = s.cues ∧ (s.markMissed).freeIdx = s.freeIdx ∧
    (s.markMissed).pending = s.pending := by
  simp only [State.markMissed]
  repeat' split
  all_goals simp

@[simp] theorem retime_keeps (s : State) :
    (s.retime).scene = s.scene ∧ (s.retime).src = s.src ∧ (s.retime).store = s.store ∧ (s.retime).comp = s.comp ∧
    (s.retime).cues = s.cues ∧ (s.retime).freeIdx = s.freeIdx ∧ (s.retime).pending = s.pending := by
  unfold State.retime
  repeat' split
  all_goals simp

@[simp] theorem latchSetup_keeps (s : State) :
    (s.latchSetup).scene = s.scene ∧ (s.latchSetup).src = s.src ∧ (s.latchSetup).store = s.store ∧
    (s.latchSetup).comp = s.comp ∧ (s.latchSetup).cues = s.cues ∧ (s.latchSetup).freeIdx = s.freeIdx ∧
    (s.latchSetup).pending = s.pending := by
  simp only [State.latchSetup]
  repeat' split
  all_goals simp

@[simp] theorem startTimeout_keeps (s : State) :
    (s.startTimeout).scene = s.scene ∧ (s.startTimeout).src = s.src ∧ (s.startTimeout).store = s.store ∧
    (s.startTimeout).comp = s.comp ∧ (s.startTimeout).cues = s.cues ∧ (s.startTimeout).freeIdx = s.freeIdx ∧
    (s.startTimeout).pending = s.pending := by
  unfold State.startTimeout
  repeat' split
  all_goals simp

@[simp] theorem markStart_keeps (s : State) :
    (s.markStart).scene = s.scene ∧ (s.markStart).src = s.src ∧ (s.markStart).store = s.store ∧
    (s.markStart).comp = s.comp ∧ (s.markStart).cues = s.cues ∧ (s.markStart).freeIdx = s.freeIdx ∧
    (s.markStart).pending = s.pending := by
  simp [State.markStart]

@[simp] theorem markTimer_keeps (s : State) :
    (s.markTimer).scene = s.scene ∧ (s.markTimer).src = s.src ∧ (s.markTimer).store = s.store ∧
    (s.markTimer).comp = s.comp ∧ (s.markTimer).cues = s.cues ∧ (s.markTimer).freeIdx = s.freeIdx ∧
    (s.markTimer).pending = s.pending := by
  simp [State.markTimer]

/-! ### The Source Tracker -/

@[simp] theorem setTrack_keeps (n : Fin 32) (t : SourceTrack) (s : State) :
    (s.setTrack n t).ring = s.ring ∧ (s.setTrack n t).cmd = s.cmd ∧ (s.setTrack n t).timer = s.timer ∧
    (s.setTrack n t).scene = s.scene ∧ (s.setTrack n t).store = s.store ∧ (s.setTrack n t).comp = s.comp ∧
    (s.setTrack n t).cues = s.cues ∧ (s.setTrack n t).freeIdx = s.freeIdx ∧ (s.setTrack n t).pending = s.pending := by
  simp [State.setTrack]

@[simp] theorem sourceLive_keeps (n : Fin 32) (s : State) :
    (s.sourceLive n).timer = s.timer ∧ (s.sourceLive n).scene = s.scene ∧ (s.sourceLive n).store = s.store ∧
    (s.sourceLive n).comp = s.comp ∧ (s.sourceLive n).cues = s.cues ∧ (s.sourceLive n).freeIdx = s.freeIdx ∧
    (s.sourceLive n).pending = s.pending := by
  simp only [State.sourceLive]
  split <;> simp

@[simp] theorem endFrame_keeps (n : Fin 32) (s : State) :
    (s.endFrame n).timer = s.timer ∧ (s.endFrame n).scene = s.scene ∧ (s.endFrame n).comp = s.comp ∧
    (s.endFrame n).cues = s.cues ∧ (s.endFrame n).freeIdx = s.freeIdx ∧ (s.endFrame n).pending = s.pending := by
  simp only [State.endFrame]
  repeat' split
  all_goals simp

@[simp] theorem openFrame_keeps (n : Fin 32) (tag : Byte) (s : State) :
    (s.openFrame n tag).ring = s.ring ∧ (s.openFrame n tag).cmd = s.cmd ∧ (s.openFrame n tag).timer = s.timer ∧
    (s.openFrame n tag).scene = s.scene ∧ (s.openFrame n tag).comp = s.comp ∧ (s.openFrame n tag).cues = s.cues ∧
    (s.openFrame n tag).freeIdx = s.freeIdx ∧ (s.openFrame n tag).pending = s.pending := by
  simp [State.openFrame]

@[simp] theorem acceptStrip_keeps (n : Fin 32) (st : Strip) (s : State) :
    (s.acceptStrip n st).timer = s.timer ∧ (s.acceptStrip n st).scene = s.scene ∧ (s.acceptStrip n st).comp = s.comp ∧
    (s.acceptStrip n st).cues = s.cues ∧ (s.acceptStrip n st).freeIdx = s.freeIdx ∧
    (s.acceptStrip n st).pending = s.pending := by
  simp only [State.acceptStrip]
  split <;> simp

@[simp] theorem startFrame_keeps (n : Fin 32) (st : Strip) (s : State) :
    (s.startFrame n st).timer = s.timer ∧ (s.startFrame n st).scene = s.scene ∧ (s.startFrame n st).comp = s.comp ∧
    (s.startFrame n st).cues = s.cues ∧ (s.startFrame n st).freeIdx = s.freeIdx ∧
    (s.startFrame n st).pending = s.pending := by
  simp only [State.startFrame]
  split <;> simp

@[simp] theorem discardStrip_keeps (n : Fin 32) (s : State) :
    (s.discardStrip n).ring = s.ring ∧ (s.discardStrip n).cmd = s.cmd ∧ (s.discardStrip n).timer = s.timer ∧
    (s.discardStrip n).scene = s.scene ∧ (s.discardStrip n).store = s.store ∧ (s.discardStrip n).comp = s.comp ∧
    (s.discardStrip n).cues = s.cues ∧ (s.discardStrip n).freeIdx = s.freeIdx ∧
    (s.discardStrip n).pending = s.pending := by
  simp [State.discardStrip]

@[simp] theorem sequenceViolation_keeps (n : Fin 32) (s : State) :
    (s.sequenceViolation n).ring = s.ring ∧ (s.sequenceViolation n).cmd = s.cmd ∧
    (s.sequenceViolation n).timer = s.timer ∧ (s.sequenceViolation n).scene = s.scene ∧
    (s.sequenceViolation n).store = s.store ∧ (s.sequenceViolation n).comp = s.comp ∧
    (s.sequenceViolation n).cues = s.cues ∧ (s.sequenceViolation n).freeIdx = s.freeIdx ∧
    (s.sequenceViolation n).pending = s.pending := by
  simp [State.sequenceViolation]

@[simp] theorem stripArrival_keeps (st : Strip) (s : State) :
    (s.stripArrival st).timer = s.timer ∧ (s.stripArrival st).scene = s.scene ∧ (s.stripArrival st).comp = s.comp ∧
    (s.stripArrival st).cues = s.cues ∧ (s.stripArrival st).freeIdx = s.freeIdx ∧
    (s.stripArrival st).pending = s.pending := by
  simp only [State.stripArrival]
  repeat' split
  all_goals simp

@[simp] theorem stallSource_keeps (n : Fin 32) (s : State) :
    (s.stallSource n).timer = s.timer ∧ (s.stallSource n).scene = s.scene ∧ (s.stallSource n).store = s.store ∧
    (s.stallSource n).comp = s.comp ∧ (s.stallSource n).cues = s.cues ∧ (s.stallSource n).freeIdx = s.freeIdx ∧
    (s.stallSource n).pending = s.pending := by
  simp only [State.stallSource]
  split <;> simp

@[simp] theorem loseSource_keeps (n : Fin 32) (s : State) :
    (s.loseSource n).timer = s.timer ∧ (s.loseSource n).scene = s.scene ∧ (s.loseSource n).store = s.store ∧
    (s.loseSource n).comp = s.comp ∧ (s.loseSource n).cues = s.cues ∧ (s.loseSource n).freeIdx = s.freeIdx ∧
    (s.loseSource n).pending = s.pending := by
  simp only [State.loseSource]
  split <;> simp

@[simp] theorem markSource_keeps (n : Fin 32) (s : State) :
    (s.markSource n).timer = s.timer ∧ (s.markSource n).scene = s.scene ∧ (s.markSource n).store = s.store ∧
    (s.markSource n).comp = s.comp ∧ (s.markSource n).cues = s.cues ∧ (s.markSource n).freeIdx = s.freeIdx ∧
    (s.markSource n).pending = s.pending := by
  simp [State.markSource]

@[simp] theorem markSources_keeps (s : State) :
    (s.markSources).timer = s.timer ∧ (s.markSources).scene = s.scene ∧ (s.markSources).store = s.store ∧
    (s.markSources).comp = s.comp ∧ (s.markSources).cues = s.cues ∧ (s.markSources).freeIdx = s.freeIdx ∧
    (s.markSources).pending = s.pending := by
  unfold State.markSources
  induction indices 32 generalizing s with
  | nil => simp
  | cons n l ih => simp [ih]

/-! ### The frame mark -/

@[simp] theorem statusInterval_keeps (s : State) :
    (s.statusInterval).timer = s.timer ∧ (s.statusInterval).scene = s.scene ∧ (s.statusInterval).src = s.src ∧
    (s.statusInterval).store = s.store ∧ (s.statusInterval).comp = s.comp ∧ (s.statusInterval).cues = s.cues ∧
    (s.statusInterval).freeIdx = s.freeIdx ∧ (s.statusInterval).pending = s.pending := by
  unfold State.statusInterval
  repeat' split
  all_goals simp

@[simp] theorem markInterval_keeps (s : State) :
    (s.markInterval).timer = s.timer ∧ (s.markInterval).scene = s.scene ∧ (s.markInterval).src = s.src ∧
    (s.markInterval).store = s.store ∧ (s.markInterval).comp = s.comp ∧ (s.markInterval).cues = s.cues ∧
    (s.markInterval).freeIdx = s.freeIdx ∧ (s.markInterval).pending = s.pending := by
  simp [State.markInterval]

@[simp] theorem markCompositor_keeps (s : State) :
    (s.markCompositor).ring = s.ring ∧ (s.markCompositor).cmd = s.cmd ∧ (s.markCompositor).timer = s.timer ∧
    (s.markCompositor).scene = s.scene ∧ (s.markCompositor).src = s.src ∧ (s.markCompositor).store = s.store ∧
    (s.markCompositor).cues = s.cues ∧ (s.markCompositor).freeIdx = s.freeIdx ∧
    (s.markCompositor).pending = s.pending := by
  simp [State.markCompositor]

@[simp] theorem markCues_keeps (s : State) :
    (s.markCues.1).timer = s.timer ∧ (s.markCues.1).src = s.src ∧ (s.markCues.1).store = s.store ∧
    (s.markCues.1).comp = s.comp ∧ (s.markCues.1).freeIdx = s.freeIdx ∧ (s.markCues.1).pending = s.pending := by
  simp only [State.markCues]
  split <;> simp

@[simp] theorem markTriggers_keeps (l : List (Fin 32)) (s : State) :
    ((s.markTriggers l).1).ring = s.ring ∧ ((s.markTriggers l).1).cmd = s.cmd ∧
    ((s.markTriggers l).1).timer = s.timer ∧ ((s.markTriggers l).1).src = s.src ∧
    ((s.markTriggers l).1).store = s.store ∧ ((s.markTriggers l).1).comp = s.comp ∧
    ((s.markTriggers l).1).freeIdx = s.freeIdx ∧ ((s.markTriggers l).1).pending = s.pending := by
  simp [State.markTriggers]

@[simp] theorem markCommit_keeps (s : State) :
    (s.markCommit.1).timer = s.timer ∧ (s.markCommit.1).src = s.src ∧ (s.markCommit.1).store = s.store ∧
    (s.markCommit.1).comp = s.comp ∧ (s.markCommit.1).cues = s.cues ∧ (s.markCommit.1).freeIdx = s.freeIdx ∧
    (s.markCommit.1).pending = s.pending := by
  simp only [State.markCommit]
  split <;> simp

@[simp] theorem markScene_keeps (g : Bool) (s : State) :
    ((s.markScene g).1).timer = s.timer ∧ ((s.markScene g).1).src = s.src ∧ ((s.markScene g).1).store = s.store ∧
    ((s.markScene g).1).comp = s.comp ∧ ((s.markScene g).1).freeIdx = s.freeIdx ∧
    ((s.markScene g).1).pending = s.pending := by
  simp [State.markScene]

@[simp] theorem markStore_keeps (h : HandOver) (s : State) :
    (s.markStore h).timer = s.timer ∧ (s.markStore h).scene = s.scene ∧ (s.markStore h).src = s.src ∧
    (s.markStore h).comp = s.comp ∧ (s.markStore h).cues = s.cues ∧ (s.markStore h).freeIdx = s.freeIdx ∧
    (s.markStore h).pending = s.pending := by
  simp only [State.markStore]
  split <;> simp

@[simp] theorem frameMark_keeps (o : MarkOrder) (s : State) :
    (s.frameMark o).freeIdx = s.freeIdx ∧ (s.frameMark o).pending = s.pending := by
  simp only [State.frameMark]
  repeat' split
  all_goals simp

@[simp] theorem handSwitches_keeps (l : List (Fin 32)) (s : State) :
    (s.handSwitches l).ring = s.ring ∧ (s.handSwitches l).cmd = s.cmd ∧ (s.handSwitches l).timer = s.timer ∧
    (s.handSwitches l).scene = s.scene ∧ (s.handSwitches l).src = s.src ∧ (s.handSwitches l).comp = s.comp ∧
    (s.handSwitches l).cues = s.cues ∧ (s.handSwitches l).freeIdx = s.freeIdx ∧
    (s.handSwitches l).pending = s.pending := by
  simp [State.handSwitches]

@[simp] theorem expireCue_keeps (s : State) :
    (s.expireCue).timer = s.timer ∧ (s.expireCue).src = s.src ∧ (s.expireCue).comp = s.comp ∧
    (s.expireCue).freeIdx = s.freeIdx ∧ (s.expireCue).pending = s.pending := by
  simp only [State.expireCue]
  repeat' split
  all_goals simp

@[simp] theorem stepTour_keeps (k : Fin 32) (s : State) :
    (s.stepTour k).ring = s.ring ∧ (s.stepTour k).cmd = s.cmd ∧ (s.stepTour k).timer = s.timer ∧
    (s.stepTour k).src = s.src ∧ (s.stepTour k).comp = s.comp ∧ (s.stepTour k).cues = s.cues ∧
    (s.stepTour k).freeIdx = s.freeIdx ∧ (s.stepTour k).pending = s.pending := by
  simp only [State.stepTour]
  split <;> simp

/-! ### Lines and cues -/

@[simp] theorem buildLine_keeps (v : Nat) (s : State) :
    (s.buildLine v).ring = s.ring ∧ (s.buildLine v).cmd = s.cmd ∧ (s.buildLine v).timer = s.timer ∧
    (s.buildLine v).scene = s.scene ∧ (s.buildLine v).src = s.src ∧ (s.buildLine v).store = s.store ∧
    (s.buildLine v).cues = s.cues ∧ (s.buildLine v).freeIdx = s.freeIdx ∧ (s.buildLine v).pending = s.pending := by
  unfold State.buildLine
  repeat' split
  all_goals simp

@[simp] theorem lineStart_keeps (s : State) :
    (s.lineStart).ring = s.ring ∧ (s.lineStart).cmd = s.cmd ∧ (s.lineStart).scene = s.scene ∧
    (s.lineStart).src = s.src ∧ (s.lineStart).store = s.store ∧ (s.lineStart).cues = s.cues ∧
    (s.lineStart).freeIdx = s.freeIdx ∧ (s.lineStart).pending = s.pending := by
  unfold State.lineStart
  repeat' split
  all_goals simp

@[simp] theorem addCue_keeps (c : Cue) (s : State) :
    (s.addCue c).ring = s.ring ∧ (s.addCue c).cmd = s.cmd ∧ (s.addCue c).timer = s.timer ∧
    (s.addCue c).scene = s.scene ∧ (s.addCue c).src = s.src ∧ (s.addCue c).store = s.store ∧
    (s.addCue c).comp = s.comp ∧ (s.addCue c).freeIdx = s.freeIdx ∧ (s.addCue c).pending = s.pending := by
  simp [State.addCue]

end Sys2Proof.Machine
end

