-- ==== Sys2Proof/Laws/Table.lean ====
section
/-! SUPPORT. What reading a `Table` gives after each way of making one. -/

namespace Sys2Proof

theorem Table.ext_rows {α : Type} {n : Nat} {s t : Table α n} (h : s.rows = t.rows) : s = t := by
  cases s; cases t; cases h; rfl

@[simp] theorem Table.get_ofFn {α : Type} {n : Nat} (f : Fin n → α) (i : Fin n) : (Table.ofFn f).get i = f i := by
  simp only [Table.get, Table.ofFn, List.get_eq_getElem, List.getElem_ofFn]
  rfl

@[simp] theorem Table.get_fill {α : Type} {n : Nat} (a : α) (i : Fin n) : (Table.fill n a).get i = a := by
  simp [Table.get, Table.fill]

@[simp] theorem Table.get_map {α β : Type} {n : Nat} (f : α → β) (t : Table α n) (i : Fin n) :
    (t.map f).get i = f (t.get i) := by
  simp only [Table.get, Table.map, List.get_eq_getElem, List.getElem_map]
  rfl

theorem Table.get_set {α : Type} {n : Nat} (t : Table α n) (i j : Fin n) (a : α) :
    (t.set i a).get j = if j = i then a else t.get j := by
  simp only [Table.get, Table.set, List.get_eq_getElem, Fin.val_cast, List.getElem_set]
  split <;> rename_i h
  · rw [if_pos (Fin.ext h.symm)]
  · rw [if_neg fun e => h (congrArg Fin.val e.symm)]
    rfl

@[simp] theorem Table.get_set_self {α : Type} {n : Nat} (t : Table α n) (i : Fin n) (a : α) :
    (t.set i a).get i = a := by rw [Table.get_set, if_pos rfl]

theorem Table.get_set_of_ne {α : Type} {n : Nat} (t : Table α n) {i j : Fin n} (a : α) (h : j ≠ i) :
    (t.set i a).get j = t.get j := by rw [Table.get_set, if_neg h]

theorem Table.get_modify {α : Type} {n : Nat} (t : Table α n) (i j : Fin n) (f : α → α) :
    (t.modify i f).get j = if j = i then f (t.get j) else t.get j := by
  unfold Table.modify
  rw [Table.get_set]
  split <;> rename_i h
  · rw [h]
  · rfl

/-- Two tables with the same entries are the same table. -/
theorem Table.ext_get {α : Type} {n : Nat} {s t : Table α n} (h : ∀ i, s.get i = t.get i) : s = t := by
  apply Table.ext_rows
  apply List.ext_get (by rw [s.len, t.len])
  intro k hs ht
  exact h ⟨k, by rw [← s.len]; exact hs⟩

/-- Writing back what an entry holds changes nothing. -/
@[simp] theorem Table.set_get {α : Type} {n : Nat} (t : Table α n) (i : Fin n) : t.set i (t.get i) = t := by
  apply Table.ext_get
  intro j
  rw [Table.get_set]
  split
  · rename_i h
    rw [h]
  · rfl

@[simp] theorem indices_length (n : Nat) : (indices n).length = n := by simp [indices]

@[simp] theorem mem_indices {n : Nat} (i : Fin n) : i ∈ indices n := by simp [indices]

theorem indices_nodup (n : Nat) : (indices n).Nodup := by
  unfold indices
  exact List.nodup_ofFn.mpr fun _ _ h => h

end Sys2Proof
end

