-- ==== Sys2Proof/Laws/Ops.lean ====
section
/-! SUPPORT. What the shared operations of the Ring Port and the Store Manager can do, each said once; and what a command
taken leaves alone. -/

namespace Sys2Proof.Machine

/-! ### The outbound side (R149) -/

/-- R149: the ways a place is given. -/
theorem Ring.givePlace_cases (r : Ring) :
    (r.place = none ∧ r.givePlace = r) ∨
    (∃ idle, r.place = some idle ∧ ((r.phase ≠ .running ∧ r.signal = true) ∨
        (r.phase = .running ∧ r.slot = none ∧ r.replies = [])) ∧
      r.givePlace = { r with place := none, outbound := r.outbound ++ [idle] }) ∨
    (∃ idle, r.place = some idle ∧ r.phase ≠ .running ∧ r.signal = false ∧ r.givePlace = { r with place := none }) ∨
    (∃ idle body, r.place = some idle ∧ r.phase = .running ∧ r.slot = some body ∧
      r.givePlace = { r with place := none, slot := none, life := (r.life + 1) % 256,
                             outbound := r.outbound ++ [statusLeaving body ((r.life + 1) % 256)] }) ∨
    (∃ idle body rest, r.place = some idle ∧ r.phase = .running ∧ r.slot = none ∧ r.replies = body :: rest ∧
      r.givePlace = { r with place := none, replies := rest, outbound := r.outbound ++ [sealCell body] }) := by
  cases hp : r.place with
  | none => exact .inl ⟨rfl, by simp [Ring.givePlace, hp]⟩
  | some idle =>
    by_cases hr : r.phase = .running
    · cases hs : r.slot with
      | some body => exact .inr (.inr (.inr (.inl ⟨idle, body, rfl, hr, rfl, by simp [Ring.givePlace, hp, hr, hs]⟩)))
      | none =>
        cases hq : r.replies with
        | nil => exact .inr (.inl ⟨idle, rfl, .inr ⟨hr, rfl, rfl⟩, by simp [Ring.givePlace, hp, hr, hs, hq]⟩)
        | cons body rest =>
          exact .inr (.inr (.inr (.inr ⟨idle, body, rest, rfl, hr, rfl, rfl, by simp [Ring.givePlace, hp, hr, hs, hq]⟩)))
    · cases hs : r.signal with
      | true => exact .inr (.inl ⟨idle, rfl, .inl ⟨hr, rfl⟩, by simp [Ring.givePlace, hp, hr, hs]⟩)
      | false => exact .inr (.inr (.inl ⟨idle, rfl, hr, rfl, by simp [Ring.givePlace, hp, hr, hs]⟩))

/-- Giving a place leaves the link, the counters and the phase. -/
@[simp] theorem Ring.givePlace_keeps (r : Ring) :
    r.givePlace.phase = r.phase ∧ r.givePlace.signal = r.signal ∧ r.givePlace.signalHeld = r.signalHeld ∧
    r.givePlace.resetReply = r.resetReply ∧ r.givePlace.link = r.link ∧ r.givePlace.runCount = r.runCount ∧
    r.givePlace.cellsReceived = r.cellsReceived ∧ r.givePlace.checkErrors = r.checkErrors ∧
    r.givePlace.alignLosses = r.alignLosses ∧ r.givePlace.controlTaken = r.controlTaken ∧
    r.givePlace.repliesDropped = r.repliesDropped ∧ r.givePlace.place = none := by
  rcases r.givePlace_cases with ⟨hp, h⟩ | ⟨_, _, _, h⟩ | ⟨_, _, _, _, h⟩ | ⟨_, _, _, _, _, h⟩ | ⟨_, _, _, _, _, _, _, h⟩
  all_goals
    rw [h]
    simp_all

/-- The reply queue never grows when a place is given. -/
theorem Ring.givePlace_replies_length (r : Ring) : r.givePlace.replies.length ≤ r.replies.length := by
  rcases r.givePlace_cases with ⟨-, h⟩ | ⟨_, _, _, h⟩ | ⟨_, _, _, _, h⟩ | ⟨_, _, _, _, _, h⟩ | ⟨_, _, _, _, _, _, hr, h⟩
  all_goals simp_all

/-- R148: the ways a reply is offered. -/
theorem offerReply_cases (body : List Byte) (s : State) :
    (s.ring.replies.length < Config.replyCapacity ∧
      offerReply body s = { s with ring := { s.ring with replies := s.ring.replies ++ [body] } }) ∨
    (Config.replyCapacity ≤ s.ring.replies.length ∧
      offerReply body s =
        latch .repliesDropped { s with ring := { s.ring with repliesDropped := satInc16 s.ring.repliesDropped } }) := by
  unfold offerReply
  split
  · exact .inl ⟨‹_›, rfl⟩
  · exact .inr ⟨by omega, rfl⟩

/-! ### The Store Manager -/

@[simp] theorem StoreManager.mapWins_get (m : StoreManager) (f : Fin 32 → WinStore → WinStore) (n : Fin 32) :
    (m.mapWins f).wins.get n = f n (m.wins.get n) := by simp [StoreManager.mapWins]

@[simp] theorem StoreManager.mapWins_keeps (m : StoreManager) (f : Fin 32 → WinStore → WinStore) :
    (m.mapWins f).mem = m.mem ∧ (m.mapWins f).free = m.free ∧ (m.mapWins f).degraded = m.degraded ∧
    (m.mapWins f).pub = m.pub := by simp [StoreManager.mapWins]

/-- Roles change without moving a page (R77): the reports of the Source Tracker keep memory and the free list. -/
@[simp] theorem StoreManager.reports_keep (m : StoreManager) (active : Table WinRec 32) (s : Fin 32) (tag : Byte) (b : Bool) :
    (m.frameStart active s tag).mem = m.mem ∧ (m.frameStart active s tag).free = m.free ∧
    (m.frameEnd active s tag b).mem = m.mem ∧ (m.frameEnd active s tag b).free = m.free ∧
    (m.rewritten s).mem = m.mem ∧ (m.rewritten s).free = m.free := by
  simp [StoreManager.frameStart, StoreManager.frameEnd, StoreManager.rewritten]

/-- Strip intake touches memory alone. -/
@[simp] theorem StoreManager.intakeWindow_keeps (m : StoreManager) (src : SourceRec) (s : Fin 32) (st : Strip) (n : Fin 32) :
    (m.intakeWindow src s st n).free = m.free ∧ (m.intakeWindow src s st n).wins = m.wins ∧
    (m.intakeWindow src s st n).degraded = m.degraded ∧ (m.intakeWindow src s st n).pub = m.pub := by
  unfold StoreManager.intakeWindow
  split <;> simp

@[simp] theorem StoreManager.intake_keeps (m : StoreManager) (src : SourceRec) (s : Fin 32) (st : Strip) :
    (m.intake src s st).free = m.free ∧ (m.intake src s st).wins = m.wins ∧
    (m.intake src s st).degraded = m.degraded ∧ (m.intake src s st).pub = m.pub := by
  unfold StoreManager.intake
  induction indices 32 generalizing m with
  | nil => simp
  | cons n l ih => simp [ih]

/-! ### The Source Tracker at a mark (R58) -/

/-- R58: starts in last frame takes the starts of the panel frame, or, for an OFF source, may take 0 (log 30). -/
theorem SourceTrack.startsAtMark_cases (t : SourceTrack) :
    t.startsAtMark = t.runningStarts ∨ (t.state = .off ∧ t.runningStarts ≠ 0 ∧ t.startsAtMark = 0) := by
  unfold SourceTrack.startsAtMark
  split
  · rename_i h
    exact .inr ⟨h.1, h.2.1, rfl⟩
  · exact .inl rfl

/-- R58: a source that is not OFF shows the starts of the panel frame. -/
theorem SourceTrack.startsAtMark_of_on (t : SourceTrack) (h : t.state ≠ .off) : t.startsAtMark = t.runningStarts := by
  simp [SourceTrack.startsAtMark, h]

/-! ### Commands (R154) -/

/-- What a command's check and work leaves alone: the queue of commands and the wall frame number. -/
def LeftByWork (s t : State) : Prop :=
  t.pending = s.pending ∧ t.timer.wallN = s.timer.wallN ∧ t.store.mem = s.store.mem ∧ t.store.free = s.store.free ∧
  t.scene.active = s.scene.active ∧ t.scene.activeList = s.scene.activeList ∧ t.ring.replies = s.ring.replies ∧
  t.ring.slot = s.ring.slot ∧ t.ring.outbound = s.ring.outbound ∧ t.ring.place = s.ring.place

theorem LeftByWork.refl (s : State) : LeftByWork s s := ⟨rfl, rfl, rfl, rfl, rfl, rfl, rfl, rfl, rfl, rfl⟩

theorem LeftByWork.trans {s t u : State} (h : LeftByWork s t) (k : LeftByWork t u) : LeftByWork s u :=
  ⟨k.1.trans h.1, k.2.1.trans h.2.1, k.2.2.1.trans h.2.2.1, k.2.2.2.1.trans h.2.2.2.1,
    k.2.2.2.2.1.trans h.2.2.2.2.1, k.2.2.2.2.2.1.trans h.2.2.2.2.2.1, k.2.2.2.2.2.2.1.trans h.2.2.2.2.2.2.1,
    k.2.2.2.2.2.2.2.1.trans h.2.2.2.2.2.2.2.1, k.2.2.2.2.2.2.2.2.1.trans h.2.2.2.2.2.2.2.2.1,
    k.2.2.2.2.2.2.2.2.2.trans h.2.2.2.2.2.2.2.2.2⟩

theorem writeWindow_left (s : State) (cls : OrigClass) (n : Fin 32) (bytes : List Byte) (s' : State)
    (h : s.writeWindow cls n bytes = .written s') : LeftByWork s s' := by
  unfold State.writeWindow at h
  repeat' split at h
  all_goals first | (cases h; done) | (cases h; simp [LeftByWork, Scene.writeShadow])

theorem writeSourceRecord_left (s : State) (n : Fin 32) (bytes : List Byte) (s' : State)
    (h : s.writeSourceRecord n bytes = .written s') : LeftByWork s s' := by
  unfold State.writeSourceRecord at h
  repeat' split at h
  all_goals first | (cases h; done) | (cases h; simp [LeftByWork, State.writeSource, StoreManager.rewritten])

theorem writeRecord_left (s : State) (cls : OrigClass) (t : TableId) (i : Nat) (bytes : List Byte) (s' : State)
    (h : s.writeRecord cls t i bytes = .written s') : LeftByWork s s' := by
  cases t
  case sources => exact writeSourceRecord_left s _ _ s' h
  case windows => exact writeWindow_left s cls _ _ s' h
  all_goals
    simp only [State.writeRecord, State.writeSetup, State.writeOrigin, State.writeGlyph, State.writeTrigger] at h
    (repeat' split at h) <;> first | (cases h; done) | (cases h; simp [LeftByWork])

theorem writeRecords_left (cls : OrigClass) (t : TableId) (k i : Nat) (bytes : List Byte) (done : Nat) (s : State) :
    LeftByWork s (State.writeRecords cls t k i bytes done s).1 := by
  induction k generalizing i bytes done s with
  | zero => exact LeftByWork.refl s
  | succ k ih =>
    simp only [State.writeRecords]
    split
    · rename_i s' h
      exact (writeRecord_left s cls t i _ s' h).trans (ih _ _ _ s')
    · exact LeftByWork.refl s

theorem offerCue_left (s : State) (c : Cue) : LeftByWork s (s.offerCue c).1 := by
  unfold State.offerCue
  split <;> simp [LeftByWork, State.addCue]

theorem write_left (s : State) (cls : OrigClass) (t : TableId) (c : Control) : LeftByWork s (s.write cls t c).1 := by
  unfold State.write
  split
  · exact LeftByWork.refl s
  · split
    · exact LeftByWork.refl s
    · split
      · simp [LeftByWork, State.zeroCounters]
      · exact writeRecords_left _ _ _ _ _ _ _

theorem writeWindowIf_left (s : State) (cls : OrigClass) (n : Fin 32) (e : Nat) (bytes : List Byte) :
    LeftByWork s (s.writeWindowIf cls n e bytes).1 := by
  simp only [State.writeWindowIf]
  split
  · exact LeftByWork.refl s
  · split
    · exact LeftByWork.refl s
    · split
      · rename_i s' h
        exact writeWindow_left s cls n bytes s' h
      · exact LeftByWork.refl s

theorem writeSourceIf_left (s : State) (n : Fin 32) (e : Nat) (bytes : List Byte) :
    LeftByWork s (s.writeSourceIf n e bytes).1 := by
  simp only [State.writeSourceIf]
  split
  · exact LeftByWork.refl s
  · split
    · rename_i s' h
      exact writeSourceRecord_left s n bytes s' h
    · exact LeftByWork.refl s

theorem writeIf_left (s : State) (cls : OrigClass) (t : TableId) (c : Control) : LeftByWork s (s.writeIf cls t c).1 := by
  unfold State.writeIf
  split
  · exact writeWindowIf_left _ _ _ _ _
  · exact writeSourceIf_left _ _ _ _
  · exact LeftByWork.refl s

/-- R154: what every command's check and work leaves alone. -/
theorem work_left (s : State) (k : Command) (cls : OrigClass) (t : TableId) (c : Control) :
    LeftByWork s (s.work k cls t c).1 := by
  cases k <;> simp only [State.work]
  case read => unfold State.read; split <;> simp [LeftByWork]
  case write => exact write_left s cls t c
  case writeIf => exact writeIf_left s cls t c
  case commit =>
    unfold State.commitCommand
    split
    · simp [LeftByWork]
    · exact offerCue_left _ _
    · exact LeftByWork.refl s
  case stack =>
    unfold State.stackCommand
    repeat' split
    all_goals simp [LeftByWork]
  case nudge =>
    unfold State.nudgeCommand
    repeat' split
    all_goals simp [LeftByWork, Scene.nudge, Scene.writeShadow]
  case presetSave => unfold State.presetSave; split <;> simp [LeftByWork, Scene.savePreset]
  case presetLoad =>
    unfold State.presetLoad
    repeat' split
    all_goals simp [LeftByWork, Scene.loadPreset]
  case cueAdd =>
    unfold State.cueAdd
    split
    · exact LeftByWork.refl s
    · rename_i cue _
      split
      · exact LeftByWork.refl s
      · split
        · exact LeftByWork.refl s
        · have := offerCue_left s cue
          split
          rename_i s1 a h
          rwa [h] at this
  case cueCancel => unfold State.cueCancel; split <;> simp [LeftByWork]
  case cueClear => simp [State.cueClear, LeftByWork]
  case strobe => unfold State.strobe; split <;> simp [LeftByWork]
  case highlightClear => unfold State.highlightClear; split <;> simp [LeftByWork]
  case blankClear => unfold State.blankClear; split <;> simp [LeftByWork]
  case eventAck => simp [State.eventAck, LeftByWork]
  case enumerate => unfold State.enumerate; split <;> simp [LeftByWork]
  case tileReset => exact LeftByWork.refl s

theorem judge_left (s : State) (c : Control) : LeftByWork s (s.judge c).1 := by
  unfold State.judge
  split
  · exact LeftByWork.refl s
  · simp only
    repeat' split
    · exact LeftByWork.refl s
    · exact LeftByWork.refl s
    · exact work_left _ _ _ _ _

end Sys2Proof.Machine
end

