-- ==== Sys2Proof/Laws/PerInstr.lean ====
section
/-! SUPPORT. Statements about every command as syntax, one lemma for each constructor. -/

namespace Sys2Proof.Laws.CellOperand

/-- The cell a command carries, if it carries one. -/
def cellOf : Instr → Option Cell
  | .cellReceived c _ | .bypassCell c => some c
  | .powerOnReset | .powerOnResetEnd | .signalPresent | .signalLost | .linkAligned | .linkAlignmentLoss
  | .idleGenerate | .idlePlace | .lockAcquired | .lockBadLimit | .tileResetEnd | .lineStart | .frameMark _
  | .acquireMissedLimit | .holdoverLimit | .startTimeout | .stallLimit _ | .lossLimit _ | .cueExpiry | .tourStep _
  | .statusInterval => none

/-- A command is well formed exactly when the cell it carries, if any, has 256 bytes (R142). -/
def Statement (i : Instr) : Prop := WellFormed i = true ↔ ∀ c, cellOf i = some c → c.length = 256

theorem powerOnReset : Statement .powerOnReset := by simp [Statement, WellFormed, cellOf]
theorem powerOnResetEnd : Statement .powerOnResetEnd := by simp [Statement, WellFormed, cellOf]
theorem signalPresent : Statement .signalPresent := by simp [Statement, WellFormed, cellOf]
theorem signalLost : Statement .signalLost := by simp [Statement, WellFormed, cellOf]
theorem cellReceived (c : Cell) (b : Bool) : Statement (.cellReceived c b) := by
  simp only [Statement, WellFormed, cellOf, Cell.Whole, Config.cellBytes, Option.some.injEq, forall_eq']
  exact decide_eq_true_iff
theorem bypassCell (c : Cell) : Statement (.bypassCell c) := by
  simp only [Statement, WellFormed, cellOf, Cell.Whole, Config.cellBytes, Option.some.injEq, forall_eq']
  exact decide_eq_true_iff
theorem linkAligned : Statement .linkAligned := by simp [Statement, WellFormed, cellOf]
theorem linkAlignmentLoss : Statement .linkAlignmentLoss := by simp [Statement, WellFormed, cellOf]
theorem idleGenerate : Statement .idleGenerate := by simp [Statement, WellFormed, cellOf]
theorem idlePlace : Statement .idlePlace := by simp [Statement, WellFormed, cellOf]
theorem lockAcquired : Statement .lockAcquired := by simp [Statement, WellFormed, cellOf]
theorem lockBadLimit : Statement .lockBadLimit := by simp [Statement, WellFormed, cellOf]
theorem tileResetEnd : Statement .tileResetEnd := by simp [Statement, WellFormed, cellOf]
theorem lineStart : Statement .lineStart := by simp [Statement, WellFormed, cellOf]
theorem frameMark (o : MarkOrder) : Statement (.frameMark o) := by simp [Statement, WellFormed, cellOf]
theorem acquireMissedLimit : Statement .acquireMissedLimit := by simp [Statement, WellFormed, cellOf]
theorem holdoverLimit : Statement .holdoverLimit := by simp [Statement, WellFormed, cellOf]
theorem startTimeout : Statement .startTimeout := by simp [Statement, WellFormed, cellOf]
theorem stallLimit (n : Fin 32) : Statement (.stallLimit n) := by simp [Statement, WellFormed, cellOf]
theorem lossLimit (n : Fin 32) : Statement (.lossLimit n) := by simp [Statement, WellFormed, cellOf]
theorem cueExpiry : Statement .cueExpiry := by simp [Statement, WellFormed, cellOf]
theorem tourStep (n : Fin 32) : Statement (.tourStep n) := by simp [Statement, WellFormed, cellOf]
theorem statusInterval : Statement .statusInterval := by simp [Statement, WellFormed, cellOf]

end Sys2Proof.Laws.CellOperand
end

