-- ==== Sys2Proof/Laws/Steps.lean ====
section
/-! SUPPORT. Exec and step, command by command where a meaning has cases of its own: what CELL_RECEIVED and BYPASS_CELL answer
for a whole cell, and what a cell arriving in each link state comes to. -/

namespace Sys2Proof.Machine

theorem exec_cellReceived (c : Cell) (placeFirst : Bool) (s : State) (h : Cell.Whole c) :
    exec (.cellReceived c placeFirst) s =
      .next (if s.ring.phase = .running then s.receive c placeFirst else s.bypass c) := if_pos h

theorem exec_bypassCell (c : Cell) (s : State) (h : Cell.Whole c) :
    exec (.bypassCell c) s = .next (if s.ring.phase = .running then s else s.bypass c) := if_pos h

theorem exec_cellReceived_aligning (c : Cell) (placeFirst : Bool) (s : State) (h : Cell.Whole c)
    (hp : s.ring.phase = .running) (hl : s.ring.link = .aligning) :
    exec (.cellReceived c placeFirst) s = .next (s.receiveAligning (cellGood c) placeFirst) := by
  rw [exec_cellReceived c placeFirst s h, if_pos hp, State.receive, hl]

theorem exec_cellReceived_bad (c : Cell) (placeFirst : Bool) (s : State) (h : Cell.Whole c)
    (hp : s.ring.phase = .running) (hl : s.ring.link = .up) (hg : cellGood c = false) :
    exec (.cellReceived c placeFirst) s = .next (s.receiveBad placeFirst) := by
  simp [exec_cellReceived c placeFirst s h, hp, State.receive, hl, hg]

theorem exec_cellReceived_good (c : Cell) (placeFirst : Bool) (s : State) (h : Cell.Whole c)
    (hp : s.ring.phase = .running) (hl : s.ring.link = .up) (hg : cellGood c = true) :
    exec (.cellReceived c placeFirst) s = .next (s.receiveGood c placeFirst) := by
  simp [exec_cellReceived c placeFirst s h, hp, State.receive, hl, hg]

/-- R149: what leaves in the open place depends on the phase, the signal, the place, the cells waiting and the life count. -/
theorem Ring.givePlace_outbound_congr {r q : Ring} (h : q.phase = r.phase ∧ q.signal = r.signal ∧ q.place = r.place ∧
    q.slot = r.slot ∧ q.replies = r.replies ∧ q.life = r.life ∧ q.outbound = r.outbound) :
    q.givePlace.outbound = r.givePlace.outbound := by
  obtain ⟨h1, h2, h3, h4, h5, h6, h7⟩ := h
  rcases r.givePlace_cases with ⟨h, e⟩ | ⟨i, h, ⟨k1, k2⟩ | ⟨k1, k2, k3⟩, e⟩ | ⟨i, h, k1, k2, e⟩ | ⟨i, b, h, k1, k2, e⟩ |
      ⟨i, b, l, h, k1, k2, k3, e⟩ <;>
    rw [e] <;> simp_all [Ring.givePlace]

/-- R149: counting a cell, a run or a CONTROL cell does not change what leaves in the open place. -/
@[simp] theorem Ring.givePlace_countCell (r : Ring) (good : Bool) :
    (r.countCell good).givePlace.outbound = r.givePlace.outbound := Ring.givePlace_outbound_congr (by simp [Ring.countCell])

@[simp] theorem Ring.givePlace_countRun (r : Ring) (raised : Bool) :
    (r.countRun raised).givePlace.outbound = r.givePlace.outbound := Ring.givePlace_outbound_congr (by simp [Ring.countRun])

@[simp] theorem Ring.givePlace_countControl (r : Ring) :
    r.countControl.givePlace.outbound = r.givePlace.outbound := Ring.givePlace_outbound_congr (by simp [Ring.countControl])

/-- R149, R151: one cell leaves in a place that is open, while the tile runs or the signal is present. -/
theorem Ring.givePlace_one (r : Ring) (idle : Cell) (h : r.phase = .running ∨ r.signal = true) :
    ∃ x, ({ r with place := some idle } : Ring).givePlace.outbound = r.outbound ++ [x] := by
  rcases Ring.givePlace_cases { r with place := some idle } with ⟨k, -⟩ | ⟨_, _, _, k⟩ | ⟨_, _, k1, k2, -⟩ |
    ⟨_, _, _, _, _, k⟩ | ⟨_, _, _, _, _, _, _, k⟩
  · cases k
  · exact ⟨_, by rw [k]⟩
  · simp_all
  all_goals exact ⟨_, by rw [k]⟩

/-! ### Line starts and frame marks (R113) -/

/-- R113: a line start at the frame's end is the frame mark and line 0's start; every other line start, and every line start
while the tile is in reset, is one of the frame in progress. -/
theorem exec_lineStart_cases (s : State) :
    (s.marksNext = true ∧ exec .lineStart s = .next s.lineMark) ∨
    (s.marksNext = false ∧ exec .lineStart s = .next s.panelLine) := by
  cases h : s.marksNext <;> simp [exec, execLineStart, h]

/-- R113, R116: a frame mark comes only at the frame's end; a FRAME_MARK before it is a line start. -/
theorem exec_frameMark_cases (o : MarkOrder) (s : State) :
    (s.marksNext = true ∧ exec (.frameMark o) s = .next (s.frameMark o)) ∨
    (s.marksNext = false ∧ exec (.frameMark o) s = exec .lineStart s) := by
  cases h : s.marksNext <;> simp [exec, execLineStart, execFrameMark, h]

end Sys2Proof.Machine
end

