-- ==== Sys2Proof/Tests/Slice0.lean ====
section
/-! SUPPORT. Tests: expected values come from the spec (the section is named), and a witness for the hypotheses of each
statement that has any. -/

set_option Elab.async false

namespace Sys2Proof.Tests

open Sys2Proof.Machine

/-! ### Cells -/

/-- A cell of a header, zero payload and a check word. -/
def cellOf (hdr : List Byte) (check : Nat) : Cell := padTo 14 hdr ++ List.replicate 240 0 ++ natBytes 2 check

/-- A CONTROL cell, Table 11-1. -/
def control (dest orig cmd arg1 check : Nat) : Cell :=
  cellOf ([3, byte dest, byte orig, 1, byte cmd, 0, 0, 0] ++ natBytes 2 arg1) check

/-- A SYNC cell. -/
def sync (n flags check : Nat) : Cell := cellOf (2 :: (natBytes 4 n ++ natBytes 4 flags)) check

/-- A STRIP cell. -/
def strip (src tag line seg fmt check : Nat) : Cell :=
  cellOf ([1, byte src, byte tag] ++ natBytes 2 line ++ [byte seg, byte fmt]) check

def idle : Cell := cellOf [] 22829
def syncA : Cell := sync 4 4 37203
def sync1 : Cell := sync 40001 0 57869
/-- `syncA` with byte 200 changed on the ring. -/
def damaged : Cell := syncA.set 200 7
/-- A strip of no source of the tile. -/
def strip40 : Cell := strip 40 0 0 0 0 22848
/-- A strip of source 31. -/
def strip31 : Cell := strip 31 0 0 0 0 44358
/-- Source 0, tag 7, line 1, segment 0, RGB8. -/
def strip0 : Cell := strip 0 7 1 0 1 6030
/-- Source 0, tag 8, line 0, segment 0, RGB8; and tag 7, line 1079, segment 23, the last of a frame of 1920 by 1080. -/
def stripStart : Cell := strip 0 8 0 0 1 52194
def stripLast : Cell := strip 0 7 1079 23 1 62308
def reply : Cell := cellOf [4] 7888
def status : Cell := cellOf [5] 19239
def kind6 : Cell := cellOf [6] 46398
/-- COMMIT for tile 9, and for tile 5. -/
def toOther : Cell := control 9 0 4 0 18653
def toMine : Cell := control 5 0 4 0 41337
/-- COMMIT for every tile. -/
def toAll : Cell := control 0 0 4 0 61378
def enum0 : Cell := control 0 0 16 0 54595
def enum1 : Cell := control 0 0 16 1 38788
def enum100 : Cell := control 0 0 16 100 46183
def enum101 : Cell := control 0 0 16 101 63136
/-- ENUMERATE from originator 1, an OPERATOR. -/
def enumOp : Cell := control 0 1 16 1 23802
def resetAll : Cell := control 0 0 17 0 25121

theorem idle_good : cellGood idle = true := by rw [cellGood_eq]; decide +kernel
theorem syncA_good : cellGood syncA = true := by rw [cellGood_eq]; decide +kernel
theorem sync1_good : cellGood sync1 = true := by rw [cellGood_eq]; decide +kernel
theorem damaged_bad : cellGood damaged = false := by rw [cellGood_eq]; decide +kernel
theorem strip40_good : cellGood strip40 = true := by rw [cellGood_eq]; decide +kernel
theorem strip31_good : cellGood strip31 = true := by rw [cellGood_eq]; decide +kernel
theorem strip0_good : cellGood strip0 = true := by rw [cellGood_eq]; decide +kernel
theorem stripStart_good : cellGood stripStart = true := by rw [cellGood_eq]; decide +kernel
theorem stripLast_good : cellGood stripLast = true := by rw [cellGood_eq]; decide +kernel
theorem reply_good : cellGood reply = true := by rw [cellGood_eq]; decide +kernel
theorem status_good : cellGood status = true := by rw [cellGood_eq]; decide +kernel
theorem kind6_good : cellGood kind6 = true := by rw [cellGood_eq]; decide +kernel
theorem toOther_good : cellGood toOther = true := by rw [cellGood_eq]; decide +kernel
theorem toMine_good : cellGood toMine = true := by rw [cellGood_eq]; decide +kernel
theorem toAll_good : cellGood toAll = true := by rw [cellGood_eq]; decide +kernel
theorem enum0_good : cellGood enum0 = true := by rw [cellGood_eq]; decide +kernel
theorem enum1_good : cellGood enum1 = true := by rw [cellGood_eq]; decide +kernel
theorem enum100_good : cellGood enum100 = true := by rw [cellGood_eq]; decide +kernel
theorem enum101_good : cellGood enum101 = true := by rw [cellGood_eq]; decide +kernel
theorem enumOp_good : cellGood enumOp = true := by rw [cellGood_eq]; decide +kernel
theorem resetAll_good : cellGood resetAll = true := by rw [cellGood_eq]; decide +kernel

/-! ### States -/

/-- The state after commands, from a state. -/
def run (l : List Instr) (s : State) : State :=
  l.foldl (fun s c => match exec c s with | .next t => t | .fault _ => s | .refused _ => s) s

def mark : Instr := .frameMark ⟨false, false, true⟩

/-- A tile whose link is UP. -/
def up : State := { State.reset with ring := { Ring.powerOn with link := .up, signal := true } }

/-- `up` with another Ring Port. -/
def withRing (f : Ring → Ring) : State := { up with ring := f up.ring }

/-- `up` with another Frame Timer. -/
def withTimer (f : Timer → Timer) : State := { up with timer := f up.timer }

/-- `up` at the last line of a frame of 1125 lines, with another Frame Timer. -/
def atEnd (f : Timer → Timer) : State := withTimer fun t => f { t with lineZeroDue := false, lineCount := 1124 }

/-- `up` with source 0 enabled in a state, with a count since its last start. -/
def withSource (state : SourceState) (since : Nat) : State :=
  { up with src :=
    { records := Tracker.powerOn.records.set 0 { SourceRec.default with enabled := true }
      states := Tracker.powerOn.states.set 0 { SourceTrack.idle with state := state, sinceStart := since } } }

/-- An enabled window of 16 by 16 pixels at the corner of the canvas. -/
def corner : WinRec := { WinRec.default with enabled := true }

/-- `up` with window 0 in the shadow and the active scene. -/
def withWindow (r : WinRec) : State :=
  { up with scene := { Scene.powerOn with
      shadow := Scene.powerOn.shadow.set 0 r
      active := Scene.powerOn.active.set 0 r
      shadowList := [0]
      activeList := [0] } }

/-- `up` at a wall frame number, with a queue of cues. -/
def withCues (n : BitVec 32) (q : List Cue) : State :=
  { withTimer (fun t => { t with wallN := n }) with cues := { CueUnit.powerOn with queue := q } }

def tourWindow : WinRec := { corner with tourLen := 4, tourList := Table.ofFn fun i => ⟨12 + i.val, by omega⟩, dwell := 299 }

/-! ### Ill-formed commands and words (R142) -/

theorem test_wellFormed_short_cell : WellFormed (.cellReceived (List.replicate 255 0) false) = false := by
  decide +kernel
theorem test_wellFormed_long_bypass : WellFormed (.bypassCell (List.replicate 257 0)) = false := by decide +kernel
theorem test_wellFormed_whole_cell : WellFormed (.cellReceived idle true) = true := by decide +kernel
theorem test_short_cell_refused : exec (.cellReceived [] true) up = .refused .notWholeCell := rfl
theorem test_short_bypass_refused : exec (.bypassCell []) up = .refused .notWholeCell := rfl
/-- spec/98_reader.md: no row of the table has bits, so no word spells a command. -/
theorem test_decode_none : decodeTableWord 16 0x1234 = none := rfl

/-! ### Formats and the check word (R142, 11.3) -/

theorem test_check_one_zero_byte : checkWord [0] = 0xE1F0#16 := by decide +kernel
theorem test_check_two_zero_bytes : checkWord [0, 0] = 0x1D0F#16 := by decide +kernel
/-- 9.2: the IDLE cell the tile makes is good; its check word is found here with the two values above. -/
theorem test_idle_cell : idleCell = idle := by
  have h : checkWord (List.replicate Config.bodyBytes 0) = 22829#16 := by rw [checkWord_eq]; decide +kernel
  rw [idleCell, sealCell, h]; decide +kernel
/-- Table 2-2. -/
theorem test_widening : widen8 200 = 803 ∧ widen8 128 = 514 := by decide
/-- 10.4: 0xF0C8 is 200 and 0x0F38 is -200. -/
theorem test_signed_offsets : signed12 0xF0C8 = 200 ∧ signed12 0x0F38 = -200 := by decide
/-- 11.2: a tour length of 9 and a caption size of 3 are refused. -/
theorem test_record_ranges : ({ corner with tourLen := 9 } : WinRec).ok = false ∧
    ({ corner with capSize := 3 } : WinRec).ok = false := by decide
/-- 2.5: w 320, ecw 3840 maps columns 0, 1 and 319 to 6, 18 and 3834. -/
theorem test_map : mapOffset 320 3840 0 = 6 ∧ mapOffset 320 3840 1 = 18 ∧ mapOffset 320 3840 319 = 3834 := by decide
/-- 4.3: w 960, ecw 640: source offset 1 feeds columns 1 and 2. -/
theorem test_first : firstOffset 960 640 1 = 1 ∧ firstOffset 960 640 2 = 3 := by decide
/-- 3.2: a line of 1280 pixels in RGB10 takes 22 segments, one of 1920 in RGB8 24. -/
theorem test_segments : ({ SourceRec.default with format := .rgb10, sw := 1280 } : SourceRec).segments = 22 ∧
    SourceRec.default.segments = 24 := by decide
/-- 7.2: V 1125, O 1000: lines 1010, 990 and 10 give 10, -10 and 135. -/
theorem test_phase_error : phaseError 1125 1000 1010 = 10 ∧ phaseError 1125 1000 990 = -10 ∧
    phaseError 1125 1000 10 = 135 := by decide
/-- 8.2: target 1300, period 300, taken at 2000, comes back at 2200. -/
theorem test_next_target : nextTarget 2000 1300 300 = 2200 := by decide
/-- 1.3: RAISE 2 of 0, 4 | 2, 7, 11 changes nothing, FRONT 11 gives 0, 4 | 11, 2, 7, RAISE 4 gives 4, 0 | 2, 7, 11. -/
theorem test_stack :
    let t := (Table.fill 32 WinRec.default).set 0 { corner with pinned := true } |>.set 4 { corner with pinned := true }
    StackOp.raise.apply t 2 [0, 4, 2, 7, 11] = [0, 4, 2, 7, 11] ∧
    StackOp.front.apply t 11 [0, 4, 2, 7, 11] = [0, 4, 11, 2, 7] ∧
    StackOp.raise.apply t 4 [0, 4, 2, 7, 11] = [4, 0, 2, 7, 11] := by decide
/-- 6.4: with k 4, the frames from 10000 are in the off-phase and those from 10016 in the on-phase. -/
theorem test_flash : flashOn 10000 4 = false ∧ flashOn 10016 4 = true := by decide
/-- 6.3: a BOTTOM caption of size 2 in a window of h 20 draws glyph rows 6..15. -/
theorem test_caption_rows :
    let r := { corner with y := 100, h := 20, capPlace := .bottom, capSize := 2, capLen := 1 }
    r.captionRow 100 = 6 ∧ r.captionRow 119 = 15 := by decide
/-- 6.3: a caption of 32 glyphs at size 2 in a window of w 700: columns 696..699 are columns 0 and 1 of glyph 29. -/
theorem test_caption_clip :
    let glyphs : Table Glyph 128 := (Table.fill 128 (Table.fill 16 0)).set 7 (Table.fill 16 0x400)
    let r := { corner with
      w := 700, h := 40, capSize := 2, capLen := 32, capText := (Table.fill 32 0).set 29 7, capFg := ⟨1, 1, 1⟩ }
    r.captionAt 699 0 = true ∧ r.captionAt 700 0 = false ∧ r.captionColour glyphs 697 0 = Colour.black ∧
    r.captionColour glyphs 698 0 = ⟨1, 1, 1⟩ := by decide +kernel
/-- 6.4: a window of width 16 with border width 15 has border pixels in every column. -/
theorem test_border : ∀ i : Fin 16, ({ corner with h := 100, borderWidth := 15 } : WinRec).borderAt i.val 50 = true := by
  decide
/-- 6.5: in a PATTERN window of w 100, column 12 is white, 13 yellow, 87 blue and 88 black. -/
theorem test_bars : [12, 13, 87, 88].map (fun i => barColour (8 * i / 100)) =
    [⟨767, 767, 767⟩, ⟨767, 767, 0⟩, ⟨0, 0, 767⟩, ⟨0, 0, 0⟩] := by decide

/-! ### One step of each command -/

theorem test_powerOnReset : (run [.powerOnReset] up).ring.link = .down ∧
    (run [.powerOnReset] up).ring.phase = .powerOnReset := by decide +kernel
/-- R153: a signal present at the end of power-on reset makes the link ALIGNING. -/
theorem test_powerOnResetEnd : (run [.powerOnReset, .signalPresent, .powerOnResetEnd] up).ring.link = .aligning := by
  decide +kernel
theorem test_signalPresent : (run [.signalPresent] State.reset).ring.link = .aligning := by decide +kernel
/-- R143, R152: leaving UP raises alignment losses. -/
theorem test_signalLost : (run [.signalLost] up).ring.link = .down ∧ (run [.signalLost] up).ring.alignLosses = 1 := by
  decide +kernel
/-- 9.9, cell 5: the fourth bad cell in a row makes the link ALIGNING. -/
theorem test_bad_cell : ∃ t, exec (.cellReceived damaged false) (withRing fun r => { r with runCount := 3 }) = .next t ∧
    t.ring.link = .aligning ∧ t.ring.checkErrors = 1 ∧ t.ring.alignLosses = 1 :=
  ⟨_, exec_cellReceived_bad _ _ _ (by decide +kernel) rfl rfl damaged_bad, by decide +kernel⟩
/-- 9.9, cell 13: the eighth good cell in a row makes the link UP, and an IDLE place opens for it. -/
theorem test_aligning_cell :
    ∃ t, exec (.cellReceived syncA false) (withRing fun r => { r with link := .aligning, runCount := 7 }) = .next t ∧
    t.ring.link = .up ∧ t.ring.runCount = 0 ∧ t.ring.place.isSome = true ∧ t.ring.outbound = [] := by
  refine ⟨_, exec_cellReceived_aligning _ _ _ (by decide +kernel) rfl rfl, ?_⟩
  rw [syncA_good]
  decide +kernel
/-- 7.8, SYNC 1: e 10, ACQUIRE, trim 8, frame length 1133, slip 1. -/
theorem test_sync :
    ∃ t, exec (.cellReceived sync1 false) (withTimer fun t =>
      { t with wallN := 97, lineCount := 1010, setup := { Setup.powerOn with o := 1000 } }) = .next t ∧
    t.timer.lastPhase = 10 ∧ t.timer.lock = .acquire ∧ t.timer.trim = 8 ∧ t.timer.frameLen = 1133 ∧
    t.timer.slip = 1 ∧ t.timer.nextN = 40001 :=
  ⟨_, exec_cellReceived_good _ _ _ (by decide +kernel) rfl rfl sync1_good, by decide +kernel⟩
/-- 7.8, a lost SYNC cell: LOCKED goes to HOLDOVER and N is raised by one. -/
theorem test_frameMark :
    let t := (run [mark] (atEnd fun t => { t with lock := .locked, wallN := 40012, missed := 0 })).timer
    t.lock = .holdover ∧ t.wallN = 40013 ∧ t.missed = 1 := by decide +kernel
/-- 7.2: a trim of +8 makes the line start after line 1124 a blanking line, and the mark comes later. -/
theorem test_frameMark_of_lengthened_frame :
    let t := (run [mark] (atEnd fun t => { t with trim := 8, frameLen := 1133, wallN := 40012 })).timer
    t.lineCount = 1125 ∧ t.wallN = 40012 ∧ t.trim = 8 := by decide +kernel
/-- 1.6, R17: the load of a preset with window 0 absent makes its unpinned shadow record the default, revision raised. -/
theorem test_preset_load_of_absent_slot :
    let s := withWindow { corner with revision := 8 }
    let t := { s with scene := { s.scene with presets := s.scene.presets.set 1 { Preset.empty with valid := true } } }
    ((t.judge ⟨0, 1, 1, 8, 0, 1, 0, 0, 0, []⟩).1.scene.shadow.get 0) = { WinRec.default with revision := 9 } ∧
    (t.judge ⟨0, 1, 1, 8, 0, 1, 0, 0, 0, []⟩).1.scene.shadowList = [] := by decide +kernel
/-- 10.6, sequence 21: WRITE_IF with revision 7 where 8 stands: STALE, count 0, 8 in the first argument word. -/
theorem test_stale_reply :
    let s := withWindow { corner with revision := 8 }
    (s.judge ⟨0, 4, 21, 3, 4, 0, 1, 7, 0, []⟩).2 = ⟨.stale, 0, 8, 0, []⟩ := by decide +kernel
/-- Table 11-1: a REPLY cell has kind 4, address, originator, sequence, command, result, count. -/
theorem test_reply_layout : (replyBody 6 4 21 3 ⟨.stale, 0, 8, 0, []⟩).take 12 = [4, 6, 4, 21, 3, 5, 0, 0, 0, 8, 0, 0] := by
  decide +kernel
/-- R151: in bypass a cell is repeated, good or not. -/
theorem test_bypassCell :
    (run [.bypassCell damaged] (withRing fun r => { r with phase := .tileReset })).ring.outbound = [damaged] := by
  decide +kernel
/-- R151: with no inbound signal nothing is sent in bypass, a place that stands open neither. -/
theorem test_idlePlace_in_bypass_without_signal :
    (run [.idlePlace] (withRing fun r => { r with phase := .tileReset, signal := false, place := some idleCell })).ring.outbound
      = [] := by decide +kernel
theorem test_linkAligned : (run [.linkAligned] (withRing fun r => { r with link := .aligning, runCount := 8 })).ring.link =
    .up := by decide +kernel
theorem test_linkAlignmentLoss : (run [.linkAlignmentLoss] (withRing fun r => { r with runCount := 4 })).ring.link =
    .aligning := by decide +kernel
theorem test_idleGenerate : (run [.idleGenerate] State.reset).ring.place.isSome = true := by decide +kernel
/-- 9.9: the STATUS cell leaves with life count 42 before the replies. -/
theorem test_idlePlace :
    let r := (run [.idlePlace] (withRing fun r =>
      { r with place := some idleCell, life := 41, slot := some (5 :: List.replicate 253 0), replies := [[4]] })).ring
    r.life = 42 ∧ (r.outbound.map fun c => c.take 3) = [[5, 0, 42]] ∧ r.replies.length = 1 := by decide +kernel
/-- 7.8, SYNC 9: LOCKED and the gate opens. -/
theorem test_lockAcquired :
    let t := (run [.lockAcquired] (withTimer fun t => { t with lock := .acquire, good := 8 })).timer
    t.lock = .locked ∧ t.good = 0 ∧ t.gate = .opened := by decide +kernel
theorem test_lockBadLimit : (run [.lockBadLimit] (withTimer fun t => { t with lock := .locked, bad := 3 })).timer.lock =
    .acquire := by decide +kernel
/-- R163: the reply of a TILE_RESET is offered at its end. -/
theorem test_tileResetEnd :
    let r := (run [.tileResetEnd] (withRing fun r =>
      { r with phase := .tileReset, signalHeld := true, resetReply := some (9, 5) })).ring
    r.link = .up ∧ (r.replies.map fun b => b.take 6) = [[4, 0, 9, 5, 17, 0]] := by decide +kernel
/-- R97: line 0 of a panel of 64 columns is black while the output state is BLACK. -/
theorem test_lineStart :
    let c := (run [.lineStart] (withTimer fun t => { t with setup := { Setup.powerOn with geo := ⟨0, 0, 64, 64⟩ } })).comp
    c.panelLine = 0 ∧ c.panelPixels = List.replicate 64 Colour.black := by decide +kernel
/-- R113: the line start after the frame's last line is the frame mark and the start of line 0, whatever the blocks' order. -/
theorem test_lineStart_is_mark :
    ∃ t, exec .lineStart (atEnd fun t => { t with wallN := 40012 }) = .next t ∧
      t.timer.wallN = 40013 ∧ t.timer.lineCount = 0 ∧ t.timer.lineZeroDue = false := by
  refine ⟨_, ((exec_lineStart_cases _).resolve_right fun h => absurd h.1 (by decide +kernel)).2, ?_⟩
  have h : ∀ a b c : Bool, let t := (State.frameMark { (atEnd fun t => { t with wallN := 40012 }) with freeIdx := 1 }
      ⟨a, b, c⟩).lineStart.timer; t.wallN = 40013 ∧ t.lineCount = 0 ∧ t.lineZeroDue = false := by decide +kernel
  exact h (Config.lineMarkOrder 0).1 (Config.lineMarkOrder 0).2 (Config.lineMarkOrder 0).3
theorem test_acquireMissedLimit :
    (run [.acquireMissedLimit] (withTimer fun t => { t with lock := .acquire, missed := 3 })).timer.lock = .free := by
  decide +kernel
theorem test_holdoverLimit :
    (run [.holdoverLimit] (withTimer fun t => { t with lock := .holdover, missed := 120 })).timer.lock = .free := by
  decide +kernel
/-- 7.5: the power-on start timeout opens the gate at a start count of 250. -/
theorem test_startTimeout : (run [.startTimeout] (withTimer fun t => { t with startCount := 250 })).timer.gate = .opened ∧
    (run [.startTimeout] (withTimer fun t => { t with startCount := 249 })).timer.gate = .gated := by decide +kernel
/-- 3.6: stall limit 30, loss limit 300. -/
theorem test_stallLimit : ((run [.stallLimit 0] (withSource .live 30)).src.states.get 0).state = .stalled := by
  decide +kernel
theorem test_lossLimit : ((run [.lossLimit 0] (withSource .stalled 300)).src.states.get 0).state = .lost := by
  decide +kernel
/-- 8.2: a REPEAT cue of target 1000 and period 300 is put back with target 1300. -/
theorem test_cueExpiry :
    let s := { (withTimer fun t => { t with wallN := 1000 }) with
      cues := { CueUnit.powerOn with queue := [⟨1, .commit, 0, 0, .repeating, 300, 1000⟩] } }
    (run [.cueExpiry] s).cues.queue = [⟨1, .commit, 0, 0, .repeating, 300, 1300⟩] ∧
    (run [.cueExpiry] s).scene.commitPending = true := by decide +kernel
/-- 1.7: tour 12, 13, 14, 15, dwell 299, epoch 5000, N 5300: source 13. -/
theorem test_tourStep :
    let s := withWindow tourWindow
    let s := { s with
      timer := { s.timer with wallN := 5300 }
      scene := { s.scene with wins := s.scene.wins.set 0 { WinState.cleared with epoch := 5000 } } }
    ((run [.tourStep 0] s).scene.wins.get 0).tourSource = some 13 := by decide +kernel
theorem test_statusInterval :
    let s := { up with cmd := { up.cmd with intervalCount := 32 } }
    (run [.statusInterval] s).cmd.intervalCount = 0 ∧ (run [.statusInterval] s).ring.slot.isSome = true := by
  decide +kernel

/-! ### Witnesses: states and operands that meet the hypotheses of the statements

A clause of the form `exec c s = .next t` alone is met by any state, as `test_…` above show. -/

theorem witness_StepRunsFrontCommand : ({ up with pending := [.lineStart, mark] } : State).pending = .lineStart :: [mark] ∧
    State.reset.pending = [] := ⟨rfl, rfl⟩
theorem witness_WellFormedCommandsComplete_queue : exec (.stallLimit 31) { up with pending := [mark] } =
    .next { up with pending := [mark] } := by
  simp [exec, execStallLimit, State.whenRunning, up, State.stallSource, SourceTrack.stalls, State.reset, Ring.powerOn,
    Tracker.powerOn, SourceTrack.idle]
theorem witness_WellFormedCommandsComplete : WellFormed (.cellReceived idle false) = true ∧ WellFormed mark = true ∧
    WellFormed (.bypassCell []) = false := by decide +kernel
theorem witness_PowerOnResetScene : WinRec.default.pinned = false := rfl
/-- Table 6-5: the glyph of code 65, whose columns are 7E 11 11 11 7E, in rows 4 to 11; codes 32 and 127 are blank. -/
theorem test_glyphs :
    ((indices 16).map fun row => ((builtInGlyphs.get 65).get row).toNat) =
      [0, 0, 0, 0, 0x70, 0x88, 0x88, 0x88, 0xF8, 0x88, 0x88, 0, 0, 0, 0, 0] ∧
    (∀ row, (builtInGlyphs.get 32).get row = 0) ∧ ∀ row, (builtInGlyphs.get 127).get row = 0 := by decide +kernel
theorem witness_PowerOnResetCues : Trigger.default.flagSelect = 0 := rfl
/-- The clauses of the ends of reset: with and without signal; the link UP, lost and back, with seven replies waiting. -/
theorem witness_RingAfterResets :
    (let s := withRing fun _ => { Ring.powerOn with phase := .powerOnReset, signal := true }
     s.ring.phase = .powerOnReset ∧ s.ring.link = .down ∧ s.ring.runCount = 0 ∧ s.ring.signal = true) ∧
    (let s := withRing fun _ => { Ring.powerOn with phase := .powerOnReset }
     s.ring.phase = .powerOnReset ∧ s.ring.link = .down ∧ s.ring.runCount = 0 ∧ s.ring.signal = false) ∧
    (let s := withRing fun r => { r with phase := .tileReset, signalHeld := true, replies := List.replicate 7 [] }
     s.ring.phase = .tileReset ∧ s.ring.replies.length < 8 ∧ s.ring.link = .up ∧ s.ring.linkAfterReset = .up) ∧
    (let s := withRing fun r => { r with phase := .tileReset, replies := List.replicate 7 [] }
     s.ring.phase = .tileReset ∧ s.ring.replies.length < 8 ∧ s.ring.link = .up ∧ s.ring.linkAfterReset = .aligning) := by
  decide +kernel
theorem witness_TileResetReplyAtEnd :
    (let s := withRing fun r => { r with phase := .tileReset, resetReply := some (9, 5) }
     s.ring.phase = .tileReset ∧ s.ring.resetReply = some (9, 5) ∧ s.ring.replies = []) ∧ up.ring.phase = .running := by
  decide +kernel
theorem witness_TileResetStart : Cell.Whole resetAll ∧ up.ring.phase = .running ∧ up.ring.link = .up ∧
    cellGood resetAll = true ∧ cellKind resetAll = .control ∧ (controlOf resetAll).destination = 0 ∧
    (controlOf resetAll).command = 17 ∧ up.classOf (controlOf resetAll).originator = .supervisor :=
  ⟨by decide +kernel, rfl, rfl, resetAll_good, by decide +kernel⟩
theorem witness_LinkStateChanges :
    (State.reset.ring.phase = .running ∧ State.reset.ring.link = .down) ∧
    (up.ring.phase = .running ∧ up.ring.link ≠ .down) ∧
    (withRing fun r => { r with phase := .tileReset }).ring.phase ≠ .running ∧
    (let s := withRing fun r => { r with link := .aligning, runCount := 8 }
     s.ring.phase = .running ∧ s.ring.link = .aligning ∧ 8 ≤ s.ring.runCount) ∧
    (withRing fun r => { r with link := .aligning, runCount := 7 }).ring.runCount < 8 ∧
    (let s := withRing fun r => { r with runCount := 4 }
     s.ring.phase = .running ∧ s.ring.link = .up ∧ 4 ≤ s.ring.runCount) ∧
    (withRing fun r => { r with runCount := 3 }).ring.runCount < 4 := by decide +kernel
/-- The run counts on both sides of the limit, a good cell and a bad one. -/
theorem witness_AligningCellsBecomeIdle :
    Cell.Whole syncA ∧ cellGood syncA = true ∧ Cell.Whole damaged ∧ cellGood damaged = false ∧
    (let s := withRing fun r => { r with link := .aligning, runCount := 6 }
     s.ring.phase = .running ∧ s.ring.link = .aligning ∧ s.ring.runCount < 7) ∧
    (let s := withRing fun r => { r with link := .aligning, runCount := 7 }
     s.ring.phase = .running ∧ s.ring.link = .aligning ∧ 7 ≤ s.ring.runCount) :=
  ⟨by decide +kernel, syncA_good, by decide +kernel, damaged_bad, by decide +kernel⟩
theorem witness_BadCellsInUpBecomeIdle :
    Cell.Whole damaged ∧ cellGood damaged = false ∧
    (let s := withRing fun r => { r with runCount := 2 }
     s.ring.phase = .running ∧ s.ring.link = .up ∧ s.ring.runCount < 3) ∧
    (let s := withRing fun r => { r with runCount := 3 }
     s.ring.phase = .running ∧ s.ring.link = .up ∧ 3 ≤ s.ring.runCount) :=
  ⟨by decide +kernel, damaged_bad, by decide +kernel⟩
/-- A cell of each kind of the clauses. -/
theorem witness_GoodCellsForwarded :
    up.ring.phase = .running ∧ up.ring.link = .up ∧
    (Cell.Whole strip40 ∧ cellKind strip40 = .strip) ∧ cellGood strip40 = true ∧
    (Cell.Whole syncA ∧ cellKind syncA = .sync) ∧ cellGood syncA = true ∧
    (Cell.Whole reply ∧ cellKind reply = .reply) ∧ cellGood reply = true ∧
    (Cell.Whole status ∧ cellKind status = .status) ∧ cellGood status = true ∧
    (Cell.Whole kind6 ∧ cellKind kind6 = .noMeaning) ∧ cellGood kind6 = true ∧
    (Cell.Whole toOther ∧ cellKind toOther = .control ∧ (controlOf toOther).destination ≠ 0 ∧
      (controlOf toOther).destination ≠ up.cmd.address) ∧ cellGood toOther = true ∧
    (Cell.Whole idle ∧ cellKind idle = .idle) ∧ cellGood idle = true ∧
    (Cell.Whole toAll ∧ cellKind toAll = .control ∧ (controlOf toAll).destination = 0 ∧
      (controlOf toAll).command ≠ 16) ∧ cellGood toAll = true :=
  ⟨rfl, rfl, by decide +kernel, strip40_good, by decide +kernel, syncA_good, by decide +kernel, reply_good,
    by decide +kernel, status_good, by decide +kernel, kind6_good, by decide +kernel, toOther_good, by decide +kernel,
    idle_good, by decide +kernel, toAll_good⟩
theorem witness_AddressedControlConsumed :
    let s := { up with cmd := { up.cmd with address := 5 } }
    Cell.Whole toMine ∧ s.ring.phase = .running ∧ s.ring.link = .up ∧ cellGood toMine = true ∧
    cellKind toMine = .control ∧ (controlOf toMine).destination ≠ 0 ∧ (controlOf toMine).destination = s.cmd.address :=
  ⟨by decide +kernel, rfl, rfl, toMine_good, by decide +kernel⟩
/-- Hop 1 and 100 from a SUPERVISOR; hop 0 and 101, and an OPERATOR's, are refused. -/
theorem witness_EnumerateRaisesHop :
    (∀ c ∈ [enum0, enum1, enum100, enum101, enumOp], Cell.Whole c ∧ cellKind c = .control ∧
      (controlOf c).destination = 0 ∧ (controlOf c).command = 16) ∧
    (∀ c ∈ [enum0, enum1, enum100, enum101, enumOp], cellGood c = true) ∧
    up.classOf (controlOf enum1).originator = .supervisor ∧ (controlOf enum1).arg1 = 1 ∧
    up.classOf (controlOf enum100).originator = .supervisor ∧ (controlOf enum100).arg1 = 100 ∧
    (controlOf enum0).arg1 = 0 ∧ (controlOf enum101).arg1 = 101 ∧
    up.classOf (controlOf enumOp).originator = .operator := by
  refine ⟨by decide +kernel, ?_, by decide +kernel⟩
  simp [enum0_good, enum1_good, enum100_good, enum101_good, enumOp_good]
theorem witness_BypassAndIdlePlaces :
    Cell.Whole damaged ∧ up.ring.phase = .running ∧
    (let s := withRing fun r => { r with phase := .tileReset }; s.ring.phase ≠ .running ∧ s.ring.signal = true) ∧
    (let s := withRing fun r => { r with phase := .powerOnReset, signal := false }
     s.ring.phase ≠ .running ∧ s.ring.signal = false) ∧
    (State.reset.ring.phase = .running ∧ State.reset.ring.link = .down) ∧ up.ring.link ≠ .down ∧
    (let r := (withRing fun r => { r with place := some idle, slot := some [5], replies := [[4]] }).ring
     r.phase = .running ∧ r.place = some idle ∧ r.slot = some [5]) ∧
    (let r := (withRing fun r => { r with place := some idle, replies := [[4]] }).ring
     r.phase = .running ∧ r.place = some idle ∧ r.slot = none ∧ r.replies = [[4]]) ∧
    (let r := (withRing fun r => { r with place := some idle }).ring
     r.phase = .running ∧ r.place = some idle ∧ r.slot = none ∧ r.replies = []) ∧
    (let r := (withRing fun r => { r with phase := .tileReset, signal := false, place := some idle }).ring
     r.phase ≠ .running ∧ r.place = some idle ∧ r.signal = false) ∧ up.ring.place = none := by decide +kernel
theorem witness_CheckWords : Cell.Whole syncA ∧ (List.replicate 254 (7 : Byte)).length = 254 := by decide +kernel
/-- The list of window 0 alone is the list of a table in which it alone is enabled. -/
theorem listOf_single (r : WinRec) (h : r.enabled = true) : ListOf ((Table.fill 32 WinRec.default).set 0 r) [0] := by
  refine ⟨by decide, fun n => ?_, by simp⟩
  by_cases hn : n = 0
  · subst hn; simp [h]
  · simp [hn, Table.get_set_of_ne _ _ hn, WinRec.default]

theorem listsLegal_withWindow (r : WinRec) (h : r.enabled = true) : ListsLegal (withWindow r) := by
  refine ⟨listOf_single _ h, listOf_single _ h, fun p => ?_⟩
  simp [withWindow, Scene.powerOn, Preset.empty, Preset.sound]

/-- A COMMIT NEXT command; the queue holding seven and eight replies; and a TILE_RESET. -/
theorem witness_OneReplyPerCommand :
    (let s := { withWindow corner with ring := { up.ring with replies := List.replicate 7 [] } }
     ListsLegal s ∧ s.startsReset (controlOf toMine) = false ∧ (s.judge (controlOf toMine)).2.result = .ok ∧
     s.ring.replies.length < 8) ∧
    (let s := { withWindow corner with ring := { up.ring with replies := List.replicate 8 [] } }
     ListsLegal s ∧ s.startsReset (controlOf toMine) = false ∧ 8 ≤ s.ring.replies.length) ∧
    up.startsReset (controlOf resetAll) = true :=
  ⟨⟨listsLegal_withWindow corner rfl, by decide +kernel⟩, ⟨listsLegal_withWindow corner rfl, by decide +kernel⟩,
    by decide +kernel⟩
/-- Command codes 0 and 18 and table codes 0 and 14 are UNKNOWN; a NUDGE of window 32 is refused RANGE. Originator 0 is
SUPERVISOR and originator 1 OPERATOR. -/
theorem witness_RefusedCommandChangesNothing :
    ((up.judge ⟨0, 0, 1, 18, 0, 0, 0, 0, 0, []⟩).2.result ≠ .ok ∧ Command.ofCode 18 ≠ some .write) ∧
    ((up.judge ⟨0, 0, 1, 6, 0, 32, 0, 0, 0, []⟩).2.result ≠ .ok ∧ Command.ofCode 6 ≠ some .write) ∧
    (let c := fun (code : Byte) (table index arg1 : Nat) => (⟨0, 0, 1, code, table, index, 0, arg1, 0, []⟩ : Control)
     (c 0 0 0 0).command = 0 ∧ 17 < (c 18 0 0 0).command.toNat ∧ ((c 1 0 0 0).command = 1 ∧ (c 1 0 0 0).table = 0) ∧
     ((c 3 14 0 0).command = 3 ∧ 13 < (c 3 14 0 0).table) ∧ up.classOf 1 = .operator ∧ up.classOf 0 = .supervisor ∧
     ((c 3 13 0 0).command = 3 ∧ (c 3 13 0 0).table ≤ 13 ∧ (c 3 13 0 0).table ≠ 4) ∧
     ((c 3 4 32 0).table = 4 ∧ 31 < (c 3 4 32 0).index) ∧ ((c 7 0 4 0).command = 7 ∧ 3 < (c 7 0 4 0).index) ∧
     ((c 10 0 0 256).command = 10 ∧ 255 < (c 10 0 0 256).arg1) ∧ ((c 12 0 8 0).command = 12 ∧ 7 < (c 12 0 8 0).index) ∧
     ((c 14 0 32 0).command = 14 ∧ 31 < (c 14 0 32 0).index) ∧ ((c 16 0 0 101).command = 16 ∧ 100 < (c 16 0 0 101).arg1) ∧
     ((c 17 0 0 0).command = 17)) := by decide +kernel
/-- A window that is LIVE with a frame being written, and a list with a window in it. -/
theorem witness_ReadReturnsRecords_records : ListsLegal (withWindow corner) ∧
    (withWindow corner).scene.shadowList[0]? = some 0 ∧ ((withSource .live 5).src.states.get 0).tag = none ∧
    [(⟨[5], .filling (.writing 7), true⟩ : Buffer)][0]? = some ⟨[5], .filling (.writing 7), true⟩ :=
  ⟨listsLegal_withWindow corner rfl, by decide +kernel⟩
/-- Bytes of a window, source, setup and trigger record and of a cue that a tile holds. -/
theorem witness_RecordsReadBack :
    (let r := { corner with revision := 8 }
     r.pack.length = 80 ∧ (WinRec.unpack r.pack).map (fun q => { q with revision := 8 }) =
       some ((withWindow r).scene.active.get 0)) ∧
    (SourceRec.default.pack.length = 12 ∧ SourceRec.unpack SourceRec.default.pack = some (up.src.records.get 31)) ∧
    ((Setup.powerOn.pack 0).length = 30 ∧ up.timer.pendSetup = none ∧ up.timer.setup = Setup.unpack (Setup.powerOn.pack 0)) ∧
    ((Trigger.default.pack false).length = 8 ∧ Trigger.unpack (Trigger.default.pack false) = some (up.cues.triggers.get 7)) ∧
    (let c : Cue := ⟨1, .raise, 31, 0, .repeating, 65535, 1000⟩
     c.pack.length = 12 ∧ Cue.unpack c.pack = some c ∧ (withCues 999 [c]).cues.queue[0]? = some c) ∧
    up.comp.glyphs.get 32 =
      Table.ofFn fun row => BitVec.ofNat 12 (field (List.replicate 32 0) (2 * row.val) 2 / 16) := by decide +kernel
/-- Codes on both sides of the last with a meaning, in each record. -/
theorem witness_RecordChecks :
    WinRec.unpack ([0, 5] ++ List.replicate 78 0) = none ∧ (WinRec.unpack ([0, 4, 31] ++ List.replicate 77 0)).isSome = true ∧
    SourceRec.unpack ([1, 3] ++ List.replicate 10 0) = none ∧
    (SourceRec.unpack ([1, 2] ++ List.replicate 10 0)).isSome = true ∧
    Trigger.unpack [33, 1, 4, 5, 0, 0, 0, 0] = none ∧ (Trigger.unpack [33, 1, 3, 5, 0, 0, 0, 0]).isSome = true := by
  decide +kernel
theorem witness_ReadReturnsRecords : TableId.ofCode 4 = some .windows ∧ TableId.windows.records ≤ 32 ∧ 31 < TableId.windows.records ∧
    TableId.windows ≠ .cues ∧ 63 < TableId.cues.records := by decide
theorem witness_LatchesAndStatusCells :
    up.cmd.attention = 0 ∧ (kindIn (EventKind.slip.bit ||| EventKind.nomem.bit) .nomem = true ∧
      ∀ j ∈ [EventKind.linkChange, .lockChange, .sourceLost],
        kindIn (EventKind.slip.bit ||| EventKind.nomem.bit) j = false) ∧
    EventKind.slip ≠ .lockChange ∧ (⟨0, 0, 1, 15, 0, 0, 0, 0xFFF, 0, []⟩ : Control).command = 15 ∧
    (let s := { up with cmd := { up.cmd with intervalCount := 32 } }
     s.ring.phase = .running ∧ s.timer.setup.statusInterval ≤ s.cmd.intervalCount) ∧
    (let s := { up with cmd := { up.cmd with intervalCount := 31 } }
     s.cmd.intervalCount < s.timer.setup.statusInterval) := by decide +kernel
/-- COMMIT NEXT, STROBE 7, HIGHLIGHT_CLEAR 31, BLANK_CLEAR 31, CUE_CANCEL 255, CUE_CLEAR. -/
theorem witness_FlagCommands :
    let c := fun (code : Byte) (index arg1 : Nat) => (⟨0, 1, 1, code, 0, index, 0, arg1, 0, []⟩ : Control)
    ((c 4 0 0).command = 4 ∧ (c 4 0 0).index = 0) ∧ ((c 12 7 0).command = 12 ∧ (c 12 7 0).index = (7 : Fin 8).val) ∧
    ((c 13 31 0).command = 13 ∧ (c 13 31 0).index = (31 : Fin 32).val) ∧
    ((c 14 31 0).command = 14 ∧ (c 14 31 0).index = (31 : Fin 32).val) ∧
    ((c 10 0 255).command = 10 ∧ (c 10 0 255).arg1 ≤ 255) ∧ (c 11 0 0).command = 11 := by decide

/-- An OPERATOR, originator 1, and a tile with a pinned window. -/
theorem witness_OperatorsKeepOut :
    let s := withWindow { corner with pinned := true }
    ListsLegal s ∧ s.classOf 1 = .operator ∧ (s.scene.shadow.get 0).pinned = true :=
  ⟨listsLegal_withWindow _ rfl, by decide +kernel⟩

/-- Window 0 at revision 8, as its record stands on the ring, with a command code and an expected revision. -/
def windowWrite (orig cmd count arg1 : Nat) (r : WinRec) : Control :=
  ⟨0, byte orig, 1, byte cmd, 4, 0, count, arg1, 0, r.pack⟩

/-- Each clause: an OPERATOR on a pinned record; a revision behind; a record refused; a record written by WRITE_IF and by
WRITE; a window entering, keeping and leaving the list. -/
theorem witness_WindowWrites :
    let s := withWindow { corner with revision := 8 }
    let p := withWindow { corner with revision := 8, pinned := true }
    ListOf s.scene.shadow s.scene.shadowList ∧ ListOf p.scene.shadow p.scene.shadowList ∧
    (p.classOf 1 = .operator ∧ (p.scene.shadow.get 0).pinned = true) ∧
    s.recordDenied (s.classOf 1) 0 (corner.pack.take 80) = false ∧
    (s.scene.shadow.get 0).revision ≠ (windowWrite 1 3 0 7 corner).arg1 ∧
    (s.scene.shadow.get 0).revision = (windowWrite 1 3 0 8 corner).arg1 ∧
    ((WinRec.unpack (({ corner with tourLen := 9 } : WinRec).pack.take 80)).elim false fun r => !r.ok) = true ∧
    ((WinRec.unpack (corner.pack.take 80)).elim false fun r => r.ok && r.enabled) = true ∧
    ((WinRec.unpack (WinRec.default.pack.take 80)).elim false fun r => r.ok && !r.enabled) = true := by
  refine ⟨listOf_single _ rfl, listOf_single _ rfl, by decide +kernel⟩
/-- Source 0 at revision 5: a revision behind, a record refused (stall limit at the loss limit), a record written. -/
theorem witness_SourceRewrites :
    let old : SourceRec := { SourceRec.default with revision := 5 }
    let s := { up with src := { up.src with records := up.src.records.set 0 old } }
    old = s.src.records.get 0 ∧ old.revision ≠ 4 ∧
    ((SourceRec.unpack (({ old with lossLimit := 30 } : SourceRec).pack.take 12)).elim false fun r => !r.ok) = true ∧
    ((SourceRec.unpack (({ old with enabled := true } : SourceRec).pack.take 12)).elim false fun r => r.ok) = true := by
  decide +kernel
/-- Window 32; an OPERATOR's NUDGE of a pinned window. 10.4: a window at x 32000 with w 640, nudged by 300; and the offsets
where the clamps begin. -/
theorem witness_NudgeClamps :
    let r := { corner with x := 32000, w := 640 }
    let s := withWindow r
    let c := fun (index arg1 arg2 : Nat) => (⟨0, 1, 1, 6, 0, index, 0, arg1, arg2, []⟩ : Control)
    ((c 32 0 0).command = 6 ∧ 32 ≤ (c 32 0 0).index) ∧
    (let p := withWindow { r with pinned := true }
     (c 0 0 0).index = (0 : Fin 32).val ∧ p.classOf (c 0 0 0).originator = .operator ∧ (p.scene.shadow.get 0).pinned = true) ∧
    r = s.scene.shadow.get 0 ∧ r.ok = true ∧ r.pinned = false ∧ (BitVec.ofNat 12 (c 0 300 4095).arg1).toInt = 300 ∧
    (BitVec.ofNat 12 (c 0 300 4095).arg2).toInt = -1 ∧ (32768 : Int) < r.x + 300 + r.w ∧
    (r.x + 128 + r.w : Int) ≤ 32768 ∧ (r.y + (-1) : Int) < 0 ∧ (r.x + (-2048) : Int) ≥ 0 ∧
    (let b := { r with y := 15000 }
     (b.y + 1368 + b.h : Int) ≤ 16384 ∧ (16384 : Int) < b.y + 1369 + b.h ∧
     (BitVec.ofNat 12 1369).toInt = 1369 ∧ (({ b with x := 5 } : WinRec).x + (-6) : Int) < 0) := by decide +kernel
/-- A valid preset and an empty one; PRESET_LOAD and PRESET_SAVE of preset 3; a window that would switch in place. -/
theorem witness_SceneActions :
    let sc := { (withWindow corner).scene with presets := Scene.powerOn.presets.set 3 { Preset.empty with valid := true } }
    let c := fun (code : Byte) (index : Nat) => (⟨0, 0, 1, code, 0, index, 0, 0, 0, []⟩ : Control)
    (sc.presets.get 0).valid = false ∧ (sc.presets.get 3).valid = true ∧ (sc.shadow.get 0).pinned = false ∧
    (sc.presets.get 3).slots.get 0 = none ∧
    ((sc.presets.set 3 { Preset.empty with slots := Preset.empty.slots.set 0 (some corner) }).get 3).slots.get 0 = some corner ∧
    ((c 8 4).command = 8 ∧ 4 ≤ (c 8 4).index) ∧ ((c 8 3).command = 8 ∧ (c 8 3).index = (3 : Fin 4).val) ∧
    ((c 7 3).command = 7 ∧ (c 7 3).index = (3 : Fin 4).val ∧ up.classOf (c 7 3).originator = .supervisor) ∧
    ((sc.active.get 0).enabled = true ∧ (sc.active.get 0).tourLen = 0 ∧ (sc.active.get 0).source ≠ 31) := by decide +kernel
theorem witness_SceneActions_lists :
    ListOf (withWindow corner).scene.shadow (withWindow corner).scene.shadowList ∧
    ListOf (withWindow corner).scene.active (withWindow corner).scene.activeList ∧
    0 ∈ (withWindow corner).scene.shadowList ∧ 1 ∉ (withWindow corner).scene.activeList :=
  ⟨listOf_single _ rfl, listOf_single _ rfl, by decide, by decide⟩
/-- 1.3: the shadow list 0, 4 | 2, 7, 11. -/
def stacked : State :=
  let pinned : Fin 32 → Bool := fun n => decide (n = 0 ∨ n = 4)
  { up with scene := { Scene.powerOn with
      shadow := Table.ofFn fun n =>
        { WinRec.default with enabled := pinned n || decide (n = 2 ∨ n = 7 ∨ n = 11), pinned := pinned n }
      shadowList := [0, 4, 2, 7, 11] } }
/-- STACK of window 32; an OPERATOR's of pinned window 4; of disabled window 1; of operation 4; and windows at the edges of their
tiers and of the list. -/
theorem witness_SceneActions_stack :
    let c := fun (orig : Byte) (index arg1 : Nat) => (⟨0, orig, 1, 5, 0, index, 0, arg1, 0, []⟩ : Control)
    ListOf stacked.scene.shadow stacked.scene.shadowList ∧ (c 0 4 0).command = 5 ∧ 32 ≤ (c 0 32 0).index ∧
    (stacked.classOf (c 1 4 0).originator = .operator ∧ (stacked.scene.shadow.get 4).pinned = true ∧
      (c 1 4 0).index = (4 : Fin 32).val) ∧
    stacked.classOf (c 0 4 0).originator = .supervisor ∧ (stacked.scene.shadow.get 1).enabled = false ∧
    4 ≤ (c 0 4 4).arg1 ∧ (c 0 4 3).arg1 < 4 ∧ (stacked.scene.shadow.get 11).enabled = true ∧
    stacked.scene.shadowList = [] ++ 0 :: 4 :: [2, 7, 11] ∧ stacked.scene.shadowList = [0] ++ 4 :: 2 :: [7, 11] ∧
    stacked.scene.shadowList = 0 :: [4, 2, 7, 11] ∧ stacked.scene.shadowList = [0, 4, 2, 7] ++ [11] := by
  unfold ListOf
  decide +kernel
/-- 1.3: FRONT 11 gives 0, 4 | 11, 2, 7. -/
theorem test_stack_front :
    (stacked.judge ⟨0, 1, 1, 5, 0, 11, 0, 2, 0, []⟩).1.scene.shadowList = [0, 4, 11, 2, 7] := by decide +kernel
/-- WRITE of GLYPHS by an OPERATOR; of ACTIVE; of index 32 and of four records of WINDOWS; of two glyphs from 127 on; of
COUNTERS with a word that names two counters. -/
theorem witness_WriteTables :
    let c := fun (orig : Byte) (table index count arg1 : Nat) =>
      (⟨0, orig, 1, 2, table, index, count, arg1, 0, List.replicate 240 0⟩ : Control)
    (TableId.ofCode (c 1 8 0 1 0).table = some .glyphs ∧ up.classOf (c 1 8 0 1 0).originator = .operator ∧
      TableId.glyphs.supervisorOnly = true) ∧
    (TableId.ofCode (c 0 5 0 1 0).table = some .active ∧ TableId.active.readOnly = true) ∧
    (TableId.ofCode (c 1 4 32 1 0).table = some .windows ∧ TableId.windows.supervisorOnly = false ∧
      TableId.windows.readOnly = false ∧ TableId.windows.records ≤ (c 1 4 32 1 0).index) ∧
    240 / TableId.windows.recordSize < (c 1 4 31 4 0).count ∧
    (up.classOf (c 0 8 127 2 0).originator = .supervisor ∧ (c 0 8 127 2 0).index < TableId.glyphs.records ∧
      (c 0 8 127 2 0).count ≤ 240 / TableId.glyphs.recordSize ∧ TableId.glyphs ≠ .counters) ∧
    (TableId.ofCode (c 1 13 0 8 33).table = some .counters ∧ (c 1 13 0 8 33).count ≤ 8 ∧
      (c 1 13 0 8 33).index = 0 ∧ TableId.counters.supervisorOnly = false ∧ TableId.counters.readOnly = false) ∧
    (c 1 13 0 8 33).command = 2 := by decide +kernel
/-- The records of WRITE: a trigger record refused and one written; WRITE_IF of SOURCES and of WINDOWS at the revision that
stands. -/
theorem witness_WriteTables_records :
    ((Trigger.unpack (List.replicate 8 255)).elim true fun r => !r.ok) = true ∧
    ((Trigger.unpack (Trigger.default.pack false)).elim false fun r => r.ok) = true ∧
    (let s := withWindow { corner with revision := 8 }
     let c := windowWrite 1 3 0 8 corner
     c.command = 3 ∧ c.table = 4 ∧ c.index = (0 : Fin 32).val ∧ c.arg1 = (s.scene.shadow.get 0).revision ∧
       s.classOf c.originator = .operator) ∧
    (let c : Control := ⟨0, 1, 1, 3, 3, 31, 1, 0, 0, SourceRec.default.pack⟩
     c.command = 3 ∧ c.table = 3 ∧ c.index = (31 : Fin 32).val ∧ c.arg1 = (up.src.records.get 31).revision) := by
  decide +kernel
theorem witness_NudgeClamps_list : ListOf (withWindow corner).scene.shadow (withWindow corner).scene.shadowList :=
  listOf_single _ rfl
theorem witness_TimerThresholds :
    (let t := (withTimer fun t => { t with lock := .acquire, good := 8 }).timer; t.lock = .acquire ∧ 8 ≤ t.good) ∧
    (let t := (withTimer fun t => { t with lock := .acquire, good := 7 }).timer; t.good < 8) ∧
    (let t := (withTimer fun t => { t with lock := .locked, bad := 3 }).timer; t.lock = .locked ∧ 3 ≤ t.bad) ∧
    (let t := (withTimer fun t => { t with lock := .locked, bad := 2 }).timer; t.bad < 3) ∧
    (let t := (withTimer fun t => { t with lock := .acquire, missed := 3 }).timer; t.lock = .acquire ∧ t.syncNoted = false ∧ 3 ≤ t.missed) ∧
    (let t := (withTimer fun t => { t with lock := .acquire, missed := 2 }).timer; t.missed < 3) ∧
    (let t := (withTimer fun t => { t with lock := .holdover, missed := 120 }).timer
     t.lock = .holdover ∧ t.syncNoted = false ∧ t.setup.holdoverLimit ≤ t.missed) ∧
    (let t := (withTimer fun t => { t with lock := .holdover, missed := 119 }).timer; t.missed < t.setup.holdoverLimit) ∧
    (let t := (withTimer fun t => { t with startCount := 250 }).timer
     t.gate = .gated ∧ 1 ≤ t.setup.startTimeout ∧ t.setup.startTimeout ≤ t.startCount) ∧
    (let t := (withTimer fun t => { t with startCount := 249 }).timer; t.startCount < t.setup.startTimeout) ∧
    up.ring.phase = .running := by decide +kernel
/-- R164, R165: a SYNC cell with the number awaited in LOCKED latches no kind and leaves the slot empty; one with another number
latches SLIP, which is in the mask, and builds a STATUS cell. -/
theorem test_sync_status (n : BitVec 32) (hn : n = 40000 ∨ n = 0) :
    ∃ t, exec (.cellReceived sync1 false) (withTimer fun t => { t with wallN := n, lock := .locked, gate := .opened }) = .next t ∧
    t.ring.slot.isSome = decide (n = 0) ∧ kindIn t.cmd.attention .slip = decide (n = 0) ∧
    kindIn t.timer.setup.eventMask .slip = true :=
  ⟨_, exec_cellReceived_good _ _ _ (by decide +kernel) rfl rfl sync1_good, by rcases hn with rfl | rfl <;> decide +kernel⟩
/-- A SYNC cell at the lines that give errors 2, 3, 8 and 9, and the counts on both sides of the limits. -/
theorem witness_SyncArrivalJudged :
    Cell.Whole sync1 ∧ up.ring.phase = .running ∧ up.ring.link = .up ∧ cellGood sync1 = true ∧ cellKind sync1 = .sync ∧
    (phaseError 1125 0 2).natAbs ≤ 2 ∧ 2 < (phaseError 1125 0 3).natAbs ∧ (phaseError 1125 0 8).natAbs ≤ 8 ∧
    8 < (phaseError 1125 0 9).natAbs ∧ 7 ≤ (withTimer fun t => { t with lock := .acquire, good := 7 }).timer.good ∧
    (withTimer fun t => { t with lock := .acquire, good := 6 }).timer.good < 7 ∧
    2 ≤ (withTimer fun t => { t with lock := .locked, bad := 2 }).timer.bad ∧
    (withTimer fun t => { t with lock := .locked, bad := 1 }).timer.bad < 2 ∧ syncNumber sync1 ≠ up.timer.wallN + 1 ∧
    (16 ≤ 1125 ∧ 1124 < 1125 ∧ 1132 < 1125 + 8) ∧ (16 ≤ 16 ∧ 15 < 16 ∧ 23 < 16 + 8) :=
  ⟨by decide +kernel, rfl, rfl, sync1_good, by decide +kernel⟩
/-- The end of a frame: with a SYNC cell noted and a setup pending, and with neither. -/
theorem witness_FrameMarkTimer : up.ring.phase = .running ∧
    (let t := (atEnd fun t => { t with syncNoted := true, pendSetup := some { Setup.powerOn with v := 1200 } }).timer
     t.lineZeroDue = false ∧ t.frameLen ≤ t.lineCount + 1 ∧ t.syncNoted = true ∧ t.pendSetup ≠ none) ∧
    (let t := (atEnd id).timer; t.lineZeroDue = false ∧ t.frameLen ≤ t.lineCount + 1 ∧ t.syncNoted = false) := by
  decide +kernel
/-- R165: the mark at which the interval count reaches 32 leaves a STATUS cell, of the tile after the mark where the Command
Unit's work comes last; the mark before it leaves the slot empty; a setup that comes into force builds one; LOCK_CHANGE. -/
theorem test_mark_status :
    let s := fun n => { atEnd id with cmd := { up.cmd with intervalCount := n } }
    (run [.frameMark ⟨true, false, true⟩] (s 31)).ring.slot =
      some (statusBody (run [.frameMark ⟨true, false, true⟩] (s 31))) ∧
    (run [.frameMark ⟨true, true, true⟩] (s 31)).ring.slot.isSome = true ∧
    (run [.frameMark ⟨true, false, true⟩] (s 30)).ring.slot = none ∧
    (run [mark] (atEnd fun t => { t with pendSetup := some Setup.powerOn })).ring.slot.isSome = true := by decide +kernel
/-- The interval due at a mark and not; LOCKED going to HOLDOVER, latched by the old mask, and a setup taken, by the new. -/
theorem witness_FrameMarkTimer_slot :
    let s := fun n => { atEnd id with cmd := { up.cmd with intervalCount := n } }
    let l := atEnd fun t => { t with lock := .locked, pendSetup := some Setup.powerOn }
    IntervalDue ⟨true, true, true⟩ (s 31) (run [.frameMark ⟨true, true, true⟩] (s 31)) ∧
    ¬IntervalDue ⟨true, false, true⟩ (s 30) (run [.frameMark ⟨true, false, true⟩] (s 30)) ∧
    (∀ k, k = .lockChange ∨ k = .setupTaken → MarkLatches l (run [mark] l) False False False k ∧
      kindIn (markMask l (run [mark] l) k) k = true) := by
  refine ⟨by unfold IntervalDue; decide +kernel, by unfold IntervalDue; decide +kernel, fun k h => ?_⟩
  rcases h with rfl | rfl <;> unfold MarkLatches markMask <;> decide +kernel
/-- The end of a frame with a commit and both clears of an enabled window pending, no trigger unit set to BLANK or HIGHLIGHT, a
REPEAT cue of the longest period, and one of the shortest. -/
theorem witness_FrameMarkScene :
    let w := withWindow corner
    let s := { atEnd id with
      scene := { w.scene with
        commitPending := true
        wins := w.scene.wins.set 0 { WinState.cleared with blank := .latched, blankClear := true, highlightClear := true } }
      cues := { CueUnit.powerOn with
        queue := [⟨1, .commit, 0, 0, .repeating, 65535, 1⟩, ⟨2, .raise, 0, 0, .repeating, 1, 1⟩] } }
    s.ring.phase = .running ∧ s.timer.lineZeroDue = false ∧ s.timer.frameLen ≤ s.timer.lineCount + 1 ∧
    s.scene.commitPending = true ∧ (s.scene.active.get 0).enabled = true ∧ (s.scene.wins.get 0).blankClear = true ∧
    (s.scene.wins.get 0).highlightClear = true ∧
    (∀ i, (s.cues.triggers.get i).action ≠ .blank ∧ (s.cues.triggers.get i).action ≠ .highlight) ∧
    (s.scene.active.get 1).enabled = false ∧
    ∀ c ∈ s.cues.queue, c.mode = .repeating → 1 ≤ c.period ∧ c.period ≤ 65535 := by decide +kernel
/-- 8.6, N 70000: the commit of a layout whose window 18 tours starts its tour at 70000 with source 20. -/
def layout : State :=
  let s := atEnd fun t => { t with wallN := 69999 }
  let tour : WinRec := { corner with tourLen := 4, tourList := Table.ofFn fun i => ⟨20 + i.val, by omega⟩, dwell := 149 }
  { s with scene := { s.scene with
      shadow := Scene.powerOn.shadow.set 18 tour
      active := Scene.powerOn.active.set 3 corner
      shadowList := [18]
      activeList := [3]
      commitPending := true } }
theorem test_commit_starts_tour :
    ((run [mark] layout).scene.wins.get 18).epoch = 70000 ∧ ((run [mark] layout).scene.wins.get 18).tourSource = some 20 := by
  decide +kernel
/-- The end of a frame with a commit that enables a touring window and disables another; a queue with a cue that is not due
before one that is, of each mode. -/
theorem witness_SceneAtMark :
    layout.ring.phase = .running ∧ layout.timer.lineZeroDue = false ∧ layout.timer.frameLen ≤ layout.timer.lineCount + 1 ∧
    layout.scene.commitPending = true ∧ (layout.scene.active.get 3).enabled = true ∧
    (layout.scene.shadow.get 3).enabled = false ∧ (layout.scene.active.get 18).enabled = false ∧
    (layout.scene.shadow.get 18).enabled = true ∧ 1 ≤ (layout.scene.shadow.get 18).tourLen ∧
    (layout.scene.shadow.get 18).tourLen ≤ 8 ∧ (layout.scene.active.get 1).enabled = false ∧
    (layout.scene.shadow.get 1).enabled = false ∧
    (∀ c ∈ [(⟨1, .commit, 0, 0, .once, 0, 1001⟩ : Cue)], atOrBefore 1000 c.target = false) ∧
    (∀ m ∈ [CueMode.once, .repeating], atOrBefore 1000 (⟨1, .raise, 31, 0, m, 1, 1000⟩ : Cue).target = true) := by
  decide +kernel
/-- A RISING unit with an edge of flag 9; a unit without a flag and a strobe, of each action at the ends of its ranges; LEVEL
units with the flag at 1 and at 0, the latter inverted; and a unit without an edge. -/
theorem witness_TriggerUnitsAct :
    let edge : Trigger := ⟨11, false, .rising, .raise, 18, 0⟩
    let button := fun (a : Machine.Action) => (⟨0, false, .any, a, 31, 3⟩ : Trigger)
    let level := fun (invert : Bool) (select : Nat) => (⟨select, invert, .level, .blank, 31, 0⟩ : Trigger)
    let p := fun (u : Trigger) (word : BitVec 32) =>
      ((decide (u.flagSelect = 1) || word.getLsbD (u.flagSelect - 2)) != u.invert)
    (p edge 0 = false ∧ p edge 512 = true ∧ edge.flagSelect ≠ 0 ∧ edge.window.toNat = (18 : Fin 32).val) ∧
    ((button .recall).flagSelect = 0 ∧ (button .source).window.toNat = (31 : Fin 32).val ∧
      (button .source).param.toNat = (3 : Fin 32).val ∧ (button .recall).param.toNat = (3 : Fin 4).val) ∧
    (p (level false 33) (1#32 <<< 31) = true ∧ p (level true 1) 0 = false ∧ (level true 1).edge = .level) ∧
    (p edge 512 = true ∧ edge.edge ≠ .level) := by decide +kernel
/-- 8.6, N 70420 and 70600: a LEVEL unit highlights its window while the flag is 1 and releases it when it is 0. -/
theorem test_level_highlight :
    let k : SceneWork := ⟨(withWindow corner).scene, []⟩
    let u : Trigger := ⟨11, false, .level, .highlight, 0, 0⟩
    let on := k.unitActs u false 0 512
    (on.scene.wins.get 0).highlight = .level ∧ ((on.unitActs u false 512 0).scene.wins.get 0).highlight = .off := by
  decide +kernel
/-- The end of a frame at which source 0 reaches its stall limit, with its event in the mask. -/
theorem witness_SourcesAtMarkAndLimits_slot :
    let s := { atEnd id with src := (withSource .live 29).src }
    MarkLatches s (run [mark] s) False False False .sourceStalled ∧
    kindIn (run [mark] s).timer.setup.eventMask .sourceStalled = true ∧ (run [mark] s).ring.slot.isSome = true :=
  ⟨⟨0, by decide +kernel⟩, by decide +kernel⟩
/-- The end of a frame; a source that is not OFF, and one that is. -/
theorem witness_SourcesAtMarkAndLimits_mark : (atEnd id).ring.phase = .running ∧ (atEnd id).timer.lineZeroDue = false ∧
    (atEnd id).timer.frameLen ≤ (atEnd id).timer.lineCount + 1 ∧ ((withSource .live 0).src.states.get 0).state ≠ .off ∧
    (up.src.states.get 0).state = .off := by decide +kernel
theorem witness_SourcesAtMarkAndLimits :
    (let s := withSource .live 30
     s.ring.phase = .running ∧ (s.src.states.get 0).state = .live ∧
     (s.src.records.get 0).stallLimit ≤ (s.src.states.get 0).sinceStart) ∧
    (let s := withSource .waiting 29; (s.src.states.get 0).sinceStart < (s.src.records.get 0).stallLimit) ∧
    (let s := withSource .stalled 300
     s.ring.phase = .running ∧ (s.src.states.get 0).state = .stalled ∧
     (s.src.records.get 0).lossLimit ≤ (s.src.states.get 0).sinceStart) ∧
    (let s := withSource .stalled 299; (s.src.states.get 0).sinceStart < (s.src.records.get 0).lossLimit) := by
  decide +kernel
/-- Source 0 LIVE with frame 7 open at a position. -/
def midFrame (line segment : Nat) : State :=
  let s := withSource .live 0
  { s with src := { s.src with states := s.src.states.set 0 { s.src.states.get 0 with
      tag := some 7
      frameOpen := true
      accepted := 24
      lastLine := line
      lastSegment := segment } } }

/-- A strip of no source of the tile, and one of source 31, which is disabled; a strip with no frame open; and a strip at the
position of the last accepted one. -/
theorem witness_FailedStripsDiscarded :
    (Cell.Whole strip40 ∧ cellKind strip40 = .strip ∧ 31 < (stripOf strip40).source) ∧ cellGood strip40 = true ∧
    (Cell.Whole strip31 ∧ cellKind strip31 = .strip ∧ (stripOf strip31).source = (31 : Fin 32).val ∧
      (up.src.records.get 31).accepts (stripOf strip31) = false) ∧ cellGood strip31 = true ∧ up.ring.link = .up ∧
    (let s := withSource .live 0
     Cell.Whole strip0 ∧ s.ring.link = .up ∧ (stripOf strip0).source = (0 : Fin 32).val ∧ (stripOf strip0).line ≠ 0 ∧
      (s.src.states.get 0).frameOpen = false) ∧ cellGood strip0 = true ∧
    (let s := midFrame 1 0
     s.ring.link = .up ∧ (s.src.records.get 0).accepts (stripOf strip0) = true ∧ (s.src.states.get 0).frameOpen = true ∧
      (s.src.states.get 0).tag = some (stripOf strip0).tag ∧ (stripOf strip0).line = (s.src.states.get 0).lastLine ∧
      (stripOf strip0).segment ≤ (s.src.states.get 0).lastSegment) :=
  ⟨by decide +kernel, strip40_good, by decide +kernel, strip31_good, rfl, by decide +kernel, strip0_good, by decide +kernel⟩
/-- Line 1, segment 0 of the open frame of tag 7, whose last accepted strip was line 0, segment 23; and the frame's last
strip after the one before it. -/
theorem witness_AcceptedStripCounts :
    (let s := midFrame 0 23
     Cell.Whole strip0 ∧ s.ring.phase = .running ∧ s.ring.link = .up ∧ cellKind strip0 = .strip ∧
      (stripOf strip0).source = (0 : Fin 32).val ∧ (s.src.records.get 0).enabled = true ∧
      (stripOf strip0).format = (s.src.records.get 0).format.code ∧ (stripOf strip0).line < (s.src.records.get 0).sh ∧
      (stripOf strip0).segment < (s.src.records.get 0).segments ∧ (s.src.states.get 0).frameOpen = true ∧
      (s.src.states.get 0).tag = some (stripOf strip0).tag ∧ (s.src.states.get 0).lastLine < (stripOf strip0).line) ∧
    cellGood strip0 = true ∧
    (let s := midFrame 1079 22
     Cell.Whole stripLast ∧ cellKind stripLast = .strip ∧ (stripOf stripLast).source = (0 : Fin 32).val ∧
      (stripOf stripLast).format = (s.src.records.get 0).format.code ∧
      (stripOf stripLast).line + 1 = (s.src.records.get 0).sh ∧
      (stripOf stripLast).segment + 1 = (s.src.records.get 0).segments ∧
      (s.src.states.get 0).tag = some (stripOf stripLast).tag ∧
      (stripOf stripLast).line = (s.src.states.get 0).lastLine ∧
      (s.src.states.get 0).lastSegment < (stripOf stripLast).segment) ∧ cellGood stripLast = true :=
  ⟨by decide +kernel, strip0_good, by decide +kernel, stripLast_good⟩
/-- A frame start of tag 8 while frame 7 is open; the end of frame 7 with 24 of 25920 strips accepted, rejected; and of a frame
whose missing count is the missing limit, complete. -/
theorem witness_FrameStartsAndEnds :
    (let s := midFrame 0 23
     Cell.Whole stripStart ∧ s.ring.phase = .running ∧ s.ring.link = .up ∧ cellKind stripStart = .strip ∧
      (stripOf stripStart).source = (0 : Fin 32).val ∧ (s.src.records.get 0).enabled = true ∧
      (stripOf stripStart).format = (s.src.records.get 0).format.code ∧ 1 ≤ (s.src.records.get 0).sh ∧
      1 ≤ (s.src.records.get 0).segments ∧ (stripOf stripStart).line = 0 ∧ (stripOf stripStart).segment = 0 ∧
      (s.src.states.get 0).tag ≠ some (stripOf stripStart).tag ∧ (s.src.states.get 0).frameOpen = true ∧
      (s.src.states.get 0).tag = some 7 ∧
      (s.src.records.get 0).missingLimit + (s.src.states.get 0).accepted <
        (s.src.records.get 0).sh * (s.src.records.get 0).segments ∧
      (s.src.records.get 0).sh * (s.src.records.get 0).segments ≤ (s.src.records.get 0).missingLimit + 25920) ∧
    cellGood stripStart = true :=
  ⟨by decide +kernel, stripStart_good⟩
/-- 5.3, 5.4: three buffers with and without READY, two, and one, of a window that source 0 feeds; tag 7 is being written. -/
theorem witness_BufferReports :
    let w := fun (roles : List Role) =>
      ({ WinStore.empty with bufs := roles.map fun r => ⟨[], r, false⟩, feeding := some 0 } : WinStore)
    (w [.showing, .filling (.writing 7), .ready]).bufs.length = 3 ∧
    (∃ b ∈ (w [.showing, .filling (.writing 7), .ready]).bufs, b.role = .filling (.writing 7)) ∧
    (∃ b ∈ (w [.showing, .filling (.writing 7), .ready]).bufs, b.role = .ready) ∧
    (∀ b ∈ (w [.showing, .filling (.writing 7), .spare]).bufs, b.role ≠ .ready) ∧
    (∀ b ∈ (w [.showing, .filling (.writing 7), .spare]).bufs, b.role ≠ .filling (.writing 8)) ∧
    (w [.showing, .filling .armed]).bufs.length = 2 ∧ (w [.showing]).bufs.length = 1 ∧
    (w [.showing]).feeding = some 0 ∧ (w [.showing]).feeding ≠ some 1 ∧ corner.mode = .live ∧
    ({ corner with mode := .freeze } : WinRec).mode ≠ .live := by decide +kernel
/-- 5.3, R80: the READY frame that is never shown is counted as dropped and its buffer is armed. -/
theorem test_completion_drops :
    let w : WinStore := { WinStore.empty with
      feeding := some 0
      bufs := [⟨[0], .showing, true⟩, ⟨[1], .filling (.writing 7), false⟩, ⟨[2], .ready, true⟩] }
    (w.onComplete 0 7 .live).bufs = [⟨[0], .showing, true⟩, ⟨[1], .ready, true⟩, ⟨[2], .filling .armed, true⟩] ∧
    (w.onComplete 0 7 .live).dropped = 1 := by decide +kernel
/-- What is handed over at a mark for one window of 16 by 16 pixels, with a change of it. -/
def handed (r : WinRec) (change : WinChange) : HandOver :=
  { active := Table.fill 32 WinRec.default |>.set 0 r
    activeList := [0]
    tours := Table.fill 32 none
    geo := ⟨0, 0, 1920, 1080⟩
    changes := Table.fill 32 WinChange.none |>.set 0 change
    switched := [0]
    geoChanged := false }
/-- Windows with and without buffers, switched and not, fed by source 0 and by another; entering FREEZE, in FREEZE, and in LIVE
with one buffer and with two, of which one is READY or none. -/
theorem witness_BuffersAtMark :
    let h := handed corner WinChange.none
    let w := fun (roles : List Role) =>
      ({ WinStore.empty with bufs := roles.map fun r => ⟨[], r, false⟩, feeding := some 0 } : WinStore)
    (w []).bufs = [] ∧ (w [.showing]).bufs ≠ [] ∧ 0 ∈ h.switched ∧ 1 ∉ h.switched ∧ h.Feeds 0 (some 0) ∧
    (w [.showing]).feeding ≠ some 1 ∧ (h.active.get 0).mode = .live ∧
    (let f := handed { corner with mode := .freeze } { WinChange.none with mode := true }
     (f.active.get 0).mode = .freeze ∧ (f.changes.get 0).mode = true ∧ (f.changes.get 1).mode = false) ∧
    (w [.showing]).bufs.length < 2 ∧ 2 ≤ (w [.showing, .ready]).bufs.length ∧
    (∃ b ∈ (w [.showing, .ready]).bufs, b.role = .ready) ∧
    (∀ b ∈ (w [.showing, .filling .armed]).bufs, b.role ≠ .ready) := by
  unfold HandOver.Feeds
  decide +kernel
/-- 5.9, mark M1: A SHOWING, B READY and C WRITING become SPARE, SHOWING and WRITING, and shown rises. -/
theorem test_swap :
    let w : WinStore := { WinStore.empty with
      bufs := [⟨[0], .showing, true⟩, ⟨[1], .ready, true⟩, ⟨[2], .filling (.writing 2), false⟩] }
    (w.atMark .live true).bufs.map (·.role) = [.spare, .showing, .filling (.writing 2)] ∧ (w.atMark .live true).shown = 1 := by
  decide +kernel
/-- A window that keeps its buffers, one that does not (its source changed) and one that holds none; and a window that needs a
store of one page, with one page free and with none, in the list of windows served. -/
theorem witness_AllocationServes :
    let h := handed corner WinChange.none
    let w : WinStore := { WinStore.empty with bufs := [⟨[5], .showing, true⟩], feeding := some 0, sized := ⟨0, 0, 16, 16⟩ }
    w.bufs ≠ [] ∧ h.Keeps 0 w ∧ ¬(handed corner { WinChange.none with source := true }).Keeps 0 w ∧
    WinStore.empty.bufs = [] ∧ h.Needs 0 ⟨0, 0, 16, 16⟩ ∧ h.activeList[0]? = some 0 ∧ w.bufs.length = 1 ∧
    pagesPerBuffer ⟨0, 0, 16, 16⟩ ≤ [(5 : Page)].length ∧ ([] : List Page).length < pagesPerBuffer ⟨0, 0, 16, 16⟩ := by
  unfold HandOver.Keeps HandOver.Needs
  decide +kernel
/-- 5.5: a window without a store is served three times from a free list of two pages: SHOWING, FILLING ARMED, degraded. -/
theorem test_allocation_degrades :
    let m := ({ StoreManager.powerOn with free := [7, 9] } : StoreManager).allocate
      (handed { corner with fill := ⟨0, 0, 0⟩ } { WinChange.none with enabled := true })
    (m.wins.get 0).bufs = [⟨[7], .showing, false⟩, ⟨[9], .filling .armed, false⟩] ∧ m.free = [] ∧ m.degraded = 1 := by
  decide +kernel
/-- A cue of each action and mode, due at N or late; and one not due. -/
theorem witness_CueExpiryActs :
    (∀ c ∈ [(⟨1, .commit, 0, 0, .once, 0, 1000⟩ : Cue), ⟨1, .recall, 0, 3, .repeating, 1, 999⟩,
      ⟨1, .raise, 31, 0, .once, 0, 999⟩, ⟨1, .source, 31, 31, .repeating, 65535, 1000⟩],
      (withCues 1000 [c]).ring.phase = .running ∧ (withCues 1000 [c]).cues.queue = c :: [] ∧
      atOrBefore (withCues 1000 [c]).timer.wallN c.target = true) ∧
    (let s := withCues 1000 [⟨1, .commit, 0, 0, .once, 0, 1001⟩]
     ∀ c ∈ s.cues.queue, atOrBefore s.timer.wallN c.target = false) := by decide +kernel
/-- A queue in order; a target at N, and one a whole wrap behind. -/
theorem witness_CuesInOrder :
    [(⟨1, .commit, 0, 0, .once, 0, 1001⟩ : Cue), ⟨2, .commit, 0, 0, .once, 0, 1001⟩].Pairwise
      (fun a b => distance 1000 a.target ≤ distance 1000 b.target) ∧
    atOrBefore 1000 1000 = true ∧ atOrBefore 0 (BitVec.ofNat 32 (2 ^ 32 - 1)) = true := by decide +kernel
/-- CUE_ADD of an unknown action and mode; of a REPEAT cue of period 0; of an OPERATOR for a pinned window; and cues at each end
of the checks against the queue; COMMIT with a target and with an index without a meaning. -/
theorem witness_CuesInOrder_commands :
    let add := fun (orig : Byte) (c : Cue) => (⟨0, orig, 1, 9, 0, 0, 0, 0, 0, c.pack⟩ : Control)
    let commit := fun (index : Nat) => (⟨0, 1, 1, 4, 0, index, 0, 0, 1001, []⟩ : Control)
    let cue := fun (target : BitVec 32) => (⟨40, .raise, 4, 0, .once, 0, target⟩ : Cue)
    let s := withCues 1000 [cue 1001]
    (add 1 (cue 1001)).command = 9 ∧ 5 < (byteAt [1, 6, 0, 0, 0] 1).toNat ∧ 1 < (byteAt [1, 0, 0, 0, 2] 4).toNat ∧
    (byteAt ((add 1 (cue 1001)).payload.take 12) 1).toNat ≤ 5 ∧ (byteAt ((add 1 (cue 1001)).payload.take 12) 4).toNat ≤ 1 ∧
    (let r : Cue := { cue 1001 with mode := .repeating }; r.mode = .repeating ∧ r.period = 0) ∧
    (stacked.classOf (add 1 (cue 1001)).originator = .operator ∧ (cue 1001).window.toNat = (4 : Fin 32).val ∧
      (stacked.scene.shadow.get 4).pinned = true) ∧
    ((cue 1000).target - s.timer.wallN).toNat = 0 ∧ 2 ^ 31 ≤ ((cue 999).target - s.timer.wallN).toNat ∧
    s.timer.setup.lookAhead < ((cue 1601).target - s.timer.wallN).toNat ∧
    ((cue 1600).target - s.timer.wallN).toNat ≤ s.timer.setup.lookAhead ∧
    s.cues.queue.length < s.timer.setup.cueCapacity ∧
    s.timer.setup.cueCapacity ≤ (withCues 1000 (List.replicate 16 (cue 1001))).cues.queue.length ∧
    ((commit 1).command = 4 ∧ (commit 1).index = 1) ∧ 1 < (commit 2).index := by decide +kernel
/-- 8.6, N 69700: tag 40 with target 70000 is second after tag 50 with target 69900; a target of 70400 is FAR. -/
theorem test_cue_add :
    let s := withCues 69700 [⟨50, .raise, 3, 0, .repeating, 300, 69900⟩]
    let add := fun (target : BitVec 32) =>
      s.judge ⟨0, 0, 1, 9, 0, 0, 0, 0, 0, (⟨40, .recall, 0, 2, .once, 0, target⟩ : Cue).pack⟩
    (add 70000).1.cues.queue.map (·.tag) = [50, 40] ∧ (add 70000).2.count = 2 ∧ (add 70400).2.result = .far := by
  decide +kernel
theorem witness_TourStepShows :
    (let s := withWindow { tourWindow with tourLen := 8 }
     s.ring.phase = .running ∧ (s.scene.active.get 0).enabled = true ∧ 1 ≤ (s.scene.active.get 0).tourLen ∧
     (s.scene.active.get 0).tourLen ≤ 8) ∧ ((withWindow corner).scene.active.get 0).tourLen = 0 := by decide +kernel
/-- Line 0 after a mark; the last active line and the first blanking line; the last line of the frame; the frame's end, in a
tile reset and while the tile runs; a FRAME_MARK in the frame. -/
theorem witness_LineStartBuilds :
    up.ring.phase ≠ .powerOnReset ∧ up.timer.lineZeroDue = true ∧
    (let t := (withTimer fun t => { t with lineZeroDue := false, lineCount := 1123 }).timer; t.lineCount + 1 < t.frameLen) ∧
    (let t := (atEnd id).timer; t.lineZeroDue = false ∧ t.frameLen ≤ t.lineCount + 1) ∧ (atEnd id).ring.phase = .running ∧
    (let s := { atEnd id with ring := { (atEnd id).ring with phase := .tileReset } }
     s.ring.phase ≠ .running ∧ s.timer.lineZeroDue = false ∧ s.timer.frameLen ≤ s.timer.lineCount + 1) ∧
    (let t := (atEnd fun t => { t with frameLen := 1126 }).timer; t.lineCount + 1 < t.frameLen) ∧
    (1079 < up.timer.setup.geo.ph ∧ up.timer.setup.geo.ph ≤ 1080) ∧ up.comp.output = .black ∧
    (let s := { up with comp := { up.comp with output := .show } }
     s.ring.phase ≠ .powerOnReset ∧ s.comp.output = .show) := by decide +kernel
/-- The corner pixel of window 0; a caption over it, a border at it, and content only. -/
theorem witness_FrontmostWindowSupplies :
    (withWindow corner).scene.activeList = [] ++ 0 :: [] ∧ corner.mode ≠ .hidden ∧ corner.contains 0 0 = true ∧
    corner.contains 15 15 = true ∧ corner.contains 16 15 = false ∧
    ({ corner with capLen := 1 } : WinRec).captionAt 0 0 = true ∧
    (1 ≤ corner.capSize ∧ ({ corner with capLen := 32 } : WinRec).capLen ≤ 32) ∧
    (corner.captionAt 0 0 = false ∧ corner.borderAt 0 0 = false) ∧
    ({ corner with borderWidth := 1 } : WinRec).borderAt 0 0 = true ∧
    (let s := withWindow corner
     s.timer.wallN.toNat / 2 ^ s.timer.setup.flash % 2 = 0 ∧ visibleRect s.timer.setup.geo corner = some ⟨0, 0, 16, 16⟩ ∧
      (s.scene.wins.get 0).blank = .off ∧ ¬(1 ≤ corner.tourLen) ∧
      mapPixel corner (effectiveCrop corner (s.src.records.get 0)) 15 15 = (15, 15) ∧
      ([⟨[0], .showing, true⟩, ⟨[1], .ready, true⟩] : List Buffer).filter (fun b => b.role = .showing) =
        [⟨[0], .showing, true⟩]) := by decide +kernel
theorem witness_OnlyStripsAndMarksWriteMemory :
    (∃ t, exec .lineStart up = .next t) ∧ Instr.lineStart ≠ .powerOnReset ∧ up.timer.lineZeroDue = true ∧
    (∃ t, exec (.cellReceived syncA false) up = .next t) ∧ cellKind syncA ≠ .strip :=
  ⟨⟨_, rfl⟩, by decide, rfl, ⟨_, exec_cellReceived_good _ _ _ (by decide +kernel) rfl rfl syncA_good⟩, by decide +kernel⟩
/-- An address of a page that is held, in a store whose windows the source does not feed; and a STRIP cell that arrives, with
an address beside every page held. -/
theorem witness_StripWritesStorePixels :
    (∀ (k : Fin 32) (v : VisRect) (b : Buffer) (w : Nat × Colour) (place : Nat),
      up.store.pub.fedRect 0 k = some v → (up.store.wins.get k).receives (stripOf strip0).tag = some b →
      w ∈ stripWrites (up.store.pub.active.get k) SourceRec.default v (stripOf strip0) →
      wordAddress? b.pages w.1 = some place → ¬(place ≤ 0 ∧ 0 < place + 4)) ∧
    cellKind strip0 = .strip ∧ (∃ t, exec (.cellReceived strip0 false) up = .next t) ∧
    ∀ p ∈ up.store.heldPages, 65536 / 65536 ≠ p.val := by
  refine ⟨fun k v b w place h => ?_, by decide +kernel, ⟨_, exec_cellReceived_good _ _ _ (by decide +kernel) rfl rfl
    strip0_good⟩, ?_⟩
  · simp [up, State.reset, StoreManager.powerOn, Published.fedRect, WinRec.feed, WinRec.default] at h
  · rw [show up.store.heldPages = [] by decide +kernel]
    simp
/-- Window 0, 16 by 16, fed by source 0, its one buffer page 5; the first strip of line 15 feeds its last row, columns 0 to 15. -/
theorem witness_StripWritesStorePixels_readBack :
    let m : StoreManager := { StoreManager.powerOn with
      mem := [(3, 1)]
      wins := StoreManager.powerOn.wins.set 0 { WinStore.empty with bufs := [⟨[5], .showing, true⟩], feeding := some 0 }
      pub := { StoreManager.powerOn.pub with active := StoreManager.powerOn.pub.active.set 0 corner } }
    let st := { stripOf strip0 with line := 15 }
    m.mem.wf ∧ m.heldPages.Nodup ∧ m.pub.fedRect 0 0 = some ⟨0, 0, 16, 16⟩ ∧
    (m.wins.get 0).receives st.tag = some ⟨[5], .showing, true⟩ ∧ [(5 : Page)].length = pagesPerBuffer ⟨0, 0, 16, 16⟩ ∧
    15 ∈ fedRows (m.pub.active.get 0) (effectiveCrop corner SourceRec.default) ⟨0, 0, 16, 16⟩ st.line ∧
    0 ∈ fedColumns (m.pub.active.get 0) (effectiveCrop corner SourceRec.default) ⟨0, 0, 16, 16⟩ SourceRec.default.sw
      SourceRec.default.format.perStrip st.segment ∧
    15 ∈ fedColumns (m.pub.active.get 0) (effectiveCrop corner SourceRec.default) ⟨0, 0, 16, 16⟩ SourceRec.default.sw
      SourceRec.default.format.perStrip st.segment := by
  decide +kernel
/-- Two pages out of order, the first and the last store pixel. -/
theorem witness_StorePixelsReadBack : Memory.wf [(3, 1), (65536, 255)] ∧ [(5 : Page), 2].Nodup ∧
    0 < 16384 * [(5 : Page), 2].length ∧ 32767 < 16384 * [(5 : Page), 2].length ∧
    (∀ p ∈ [(5 : Page), 2], 3 / 65536 ≠ p.val) := by
  refine ⟨by decide +kernel, by simp⟩
/-- Equal sizes, the strongest enlargement and reduction. -/
theorem witness_MapIsMonotonic : (1 ≤ 16 ∧ 16 ≤ 16) ∧ (1 ≤ 1 ∧ 1 ≤ 32768) ∧ (1 ≤ 16 ∧ 16 < 128) ∧
    (1 ≤ corner.h ∧ 1 ≤ (effectiveCrop corner SourceRec.default).ch ∧
      (∀ j, j < corner.h → (effectiveCrop corner SourceRec.default).cy +
        mapOffset corner.h (effectiveCrop corner SourceRec.default).ch j ≠ 16) ∧ 0 - corner.y + 16 ≤ corner.h) := by decide
theorem witness_IntakeTakesWhatTheMapGives : 1 ≤ corner.w ∧ 1 ≤ (effectiveCrop corner SourceRec.default).cw := by decide
theorem witness_ColourWidening : (63#8).toNat < (64#8).toNat := by decide

/-! ### Witnesses for what every step keeps: states away from reset -/

/-- The Ring Port at the ends of its ranges, with a good cell's run broken once more. -/
def busyRing : State :=
  { up with
    ring := { up.ring with
      runCount := 3, replies := List.replicate 8 [], life := 255, cellsReceived := 65535, checkErrors := 65535 }
    cmd := { up.cmd with address := 100 }
    pending := [.cellReceived damaged true] }

theorem witness_RangesKept_ring : RingInRange busyRing ∧ ∃ t, step busyRing = .next t :=
  ⟨by simp [RingInRange, busyRing, up, Ring.powerOn], _, exec_cellReceived_bad _ _ _ (by decide +kernel) rfl rfl damaged_bad⟩

/-- A tile with window 0 in its scene holding page 0, source 0 live, a cue, a pending setup, and counts at their ends. -/
def busy : State :=
  { withWindow corner with
    timer := { up.timer with
      lineCount := 1116, lineZeroDue := false, frameLen := 1117, trim := -8
      lock := .acquire, good := 7, missed := 1000, slip := 65535, pendSetup := some Setup.powerOn }
    src := (withSource .live 65535).src
    store := { StoreManager.powerOn with
      mem := [(3, 1)]
      free := (indices 8192).tail
      wins := StoreManager.powerOn.wins.set 0
        { WinStore.empty with
          bufs := [⟨[0], .showing, true⟩], feeding := some 0, sized := ⟨0, 0, 16, 16⟩, shown := 65535 }
      degraded := 32 }
    cues := { CueUnit.powerOn with queue := [⟨1, .raise, 0, 0, .repeating, 65535, 5⟩] }
    pending := [mark] }

theorem busy_steps : ∃ t, step busy = .next t := ⟨_, rfl⟩

theorem busy_store (n : Fin 32) (hn : n ≠ 0) : busy.store.wins.get n = WinStore.empty := by
  simp [busy, StoreManager.powerOn, Table.get_set_of_ne _ _ hn]

theorem busy_store_zero : busy.store.wins.get 0 =
    ⟨[⟨[0], .showing, true⟩], some 0, ⟨0, 0, 16, 16⟩, 65535, 0, 0⟩ := by
  simp [busy, WinStore.empty]

theorem busy_setup : SetupLegal busy := by
  refine ⟨by decide +kernel, fun copy h => ?_⟩
  cases (show Setup.powerOn = copy by simpa [busy] using h)
  decide +kernel

theorem witness_RangesKept : (TimerInRange busy ∧ CountsInRange busy ∧ SetupLegal busy) ∧ ∃ t, step busy = .next t := by
  refine ⟨⟨by unfold TimerInRange; decide +kernel, ⟨fun n => ?_, fun n => ?_, by simp [busy]⟩, busy_setup⟩, busy_steps⟩
  · by_cases hn : n = 0
    · subst hn; simp [busy, withSource, SourceTrack.inRange, SourceTrack.idle]
    · simp [busy, withSource, Tracker.powerOn, Table.get_set_of_ne _ _ hn, SourceTrack.inRange, SourceTrack.idle]
  · by_cases hn : n = 0
    · subst hn; simp [busy_store_zero]
    · simp [busy_store n hn, WinStore.empty]

theorem witness_RecordsSetupAndCuesStayLegal_records : (WindowRecordsLegal busy ∧ SourceRecordsLegal busy) ∧ ∃ t, step busy = .next t := by
  refine ⟨⟨⟨by decide +kernel, by decide +kernel, fun p n r h => ?_⟩, by unfold SourceRecordsLegal; decide +kernel⟩, busy_steps⟩
  simp [busy, withWindow, Scene.powerOn, Preset.empty] at h

theorem witness_RecordsSetupAndCuesStayLegal : (SetupLegal busy ∧ CuesLegal busy) ∧ ∃ t, step busy = .next t :=
  ⟨⟨busy_setup, by unfold CuesLegal; decide +kernel⟩, busy_steps⟩

/-- A cue ahead of N, and two at one distance at the most that the check admits. -/
theorem witness_RecordsSetupAndCuesStayLegal_queue :
    let c := fun d => (⟨1, .raise, 0, 0, .repeating, 65535, d⟩ : Cue)
    let s := { withCues 1000 [c 1001, c 17384, c 17384] with pending := [mark] }
    (CuesLegal s ∧ QueueInOrder s) ∧ ∃ t, step s = .next t :=
  ⟨by unfold CuesLegal QueueInOrder; decide +kernel, _, rfl⟩

theorem witness_ListsStayLegal : ListsLegal busy ∧ ∃ t, step busy = .next t := by
  refine ⟨⟨listOf_single _ rfl, listOf_single _ rfl, fun p => ?_⟩, busy_steps⟩
  simp [busy, withWindow, Scene.powerOn, Preset.empty, Preset.sound]

theorem busy_held : busy.store.heldPages = [0] := by decide +kernel

theorem tail_perm (n : Nat) : List.Perm ((indices (n + 1)).tail ++ [0]) (indices (n + 1)) := by
  have h : (0 : Fin (n + 1)) :: (indices (n + 1)).tail = indices (n + 1) := by simp [indices, List.ofFn_succ]
  exact List.perm_append_comm.trans (List.Perm.of_eq h)

theorem busy_free : busy.store.free = (indices 8192).tail := by simp [busy]

theorem witness_StoresStayLegal_pages : PagesAccounted busy ∧ ∃ t, step busy = .next t := by
  refine ⟨?_, busy_steps⟩
  rw [PagesAccounted, busy_held, busy_free]
  exact tail_perm 8191

theorem witness_StoresStayLegal : (RolesLegal busy ∧ BuffersSized busy) ∧ ∃ t, step busy = .next t := by
  refine ⟨⟨fun n => ?_, fun n => ?_⟩, busy_steps⟩
  · by_cases hn : n = 0
    · subst hn
      rw [busy_store_zero]
      simp [WinStore.rolesLegal, WinStore.count, Role.isFilling]
    · simp [busy_store n hn, WinStore.rolesLegal, WinStore.empty, WinStore.count]
  · by_cases hn : n = 0
    · subst hn
      rw [busy_store_zero]
      simp [pagesPerBuffer, ceilDiv, Config.pagePixels]
    · simp [busy_store n hn, WinStore.empty]

theorem witness_StoresStayLegal_memory : MemoryCanonical busy ∧ ∃ t, step busy = .next t :=
  ⟨by show Memory.wf [(3, 1)]; decide +kernel, busy_steps⟩

end Sys2Proof.Tests
end

section
/-! The Scene Controller after power-on reset (01_windows_and_scenes.md, R24): what POWER_ON_RESET leaves, entry by entry of
the power-on tables, and how an absent preset slot loads (R17). -/

namespace Sys2Proof.Machine

/-- POWER_ON_RESET has one meaning in every state. -/
theorem exec_powerOnReset (s : State) : exec .powerOnReset s = .next s.powerOnReset := rfl

@[simp] theorem powerOnReset_scene (s : State) : s.powerOnReset.scene = Scene.powerOn := rfl

/-! ### The entries of the power-on tables (R24) -/

@[simp] theorem Scene.powerOn_shadow_get (n : Fin 32) : Scene.powerOn.shadow.get n = WinRec.default :=
  Table.get_fill _ n

@[simp] theorem Scene.powerOn_active_get (n : Fin 32) : Scene.powerOn.active.get n = WinRec.default :=
  Table.get_fill _ n

@[simp] theorem Scene.powerOn_presets_get (p : Fin 4) : Scene.powerOn.presets.get p = Preset.empty :=
  Table.get_fill _ p

@[simp] theorem Scene.powerOn_wins_get (n : Fin 32) : Scene.powerOn.wins.get n = WinState.cleared :=
  Table.get_fill _ n

@[simp] theorem Preset.empty_slots_get (n : Fin 32) : Preset.empty.slots.get n = none :=
  Table.get_fill _ n

/-! ### The default record (Table 1-6) -/

@[simp] theorem WinRec.default_tourList_get (i : Fin 8) : WinRec.default.tourList.get i = 0 :=
  Table.get_fill _ i

@[simp] theorem WinRec.default_capText_get (i : Fin 32) : WinRec.default.capText.get i = 0 :=
  Table.get_fill _ i

/-- Table 1-6 meets Table 1-2. -/
theorem WinRec.default_ok : WinRec.default.ok = true := by decide

/-- R17: an absent slot loads as the default record at an index that is not pinned; only the revision runs on. -/
theorem loadedRecord_none (old : WinRec) (h : old.pinned = false) :
    loadedRecord old none = { WinRec.default with revision := (old.revision + 1) % 65536 } := by
  simp [loadedRecord, h, wrapInc]

/-- Settles O3: every block takes its power-on values whatever the state before, so each clause is read off the entries of
`Scene.powerOn`, with `WinRec.default` as the record of Table 1-6. -/
theorem powerOnResetScene : Obligations.PowerOnResetScene := by
  unfold Obligations.PowerOnResetScene
  intro s
  refine ⟨s.powerOnReset, WinRec.default, exec_powerOnReset s, ?tables, ?fields, WinRec.default_ok, loadedRecord_none,
    rfl, rfl, ?presets, rfl, rfl, ?windows⟩
  case tables => simp
  case fields =>
    have htour := WinRec.default_tourList_get
    have htext := WinRec.default_capText_get
    exact ⟨rfl, rfl, rfl, rfl, htour, rfl, rfl, rfl, rfl, rfl, rfl, rfl, rfl, rfl, rfl, rfl, rfl, rfl, rfl, rfl, htext, rfl⟩
  case presets =>
    intro p
    rw [powerOnReset_scene, Scene.powerOn_presets_get]
    exact ⟨rfl, Preset.empty_slots_get, rfl⟩
  case windows =>
    intro n
    rw [powerOnReset_scene, Scene.powerOn_wins_get]
    exact ⟨rfl, rfl, rfl, rfl, rfl, rfl⟩

end Sys2Proof.Machine
end

section
/-! The map from window to source (02_picture_mapping.md, R34 to R37): on one axis the backward map `firstOffset` and the
forward map `mapOffset` form a Galois connection, so the window offsets that take one source offset are an interval, and
what R36 says about repeats is what the length of that interval is. -/

namespace Sys2Proof.Machine

/-! ### The forward map (R34) -/

theorem le_mapOffset_iff {w : Nat} (hw : 1 ≤ w) (e i t : Nat) :
    t ≤ mapOffset w e i ↔ 2 * w * t ≤ (2 * i + 1) * e := by
  rw [mapOffset, Nat.le_div_iff_mul_le (by omega), Nat.mul_comm]

/-- The map at the next window offset, when e is at most q times w: it rises by q at most. -/
theorem mapOffset_succ_le {w e q : Nat} (hw : 1 ≤ w) (h : e ≤ q * w) (i : Nat) :
    mapOffset w e (i + 1) ≤ mapOffset w e i + q := by
  have hnum : (2 * (i + 1) + 1) * e ≤ (2 * i + 1) * e + q * (2 * w) := by linarith
  calc mapOffset w e (i + 1)
      ≤ ((2 * i + 1) * e + q * (2 * w)) / (2 * w) := Nat.div_le_div_right hnum
    _ = mapOffset w e i + q := Nat.add_mul_div_right _ _ (by omega)

/-- When e is at least q times w, it rises by q at least. -/
theorem mapOffset_add_le {w e q : Nat} (hw : 1 ≤ w) (h : q * w ≤ e) (i : Nat) :
    mapOffset w e i + q ≤ mapOffset w e (i + 1) := by
  have hnum : (2 * i + 1) * e + q * (2 * w) ≤ (2 * (i + 1) + 1) * e := by linarith
  calc mapOffset w e i + q
      = ((2 * i + 1) * e + q * (2 * w)) / (2 * w) := (Nat.add_mul_div_right _ _ (by omega)).symm
    _ ≤ mapOffset w e (i + 1) := Nat.div_le_div_right hnum

/-- R36: enlarging, the first window offset takes the crop's first. -/
theorem mapOffset_zero {w e : Nat} (he : 1 ≤ e) (hew : e ≤ w) : mapOffset w e 0 = 0 :=
  Nat.div_eq_of_lt (by omega)

/-- R36: enlarging, the last window offset takes the crop's last. -/
theorem mapOffset_last {w e : Nat} (he : 1 ≤ e) (hew : e ≤ w) : mapOffset w e (w - 1) = e - 1 := by
  obtain ⟨d, rfl⟩ := Nat.exists_eq_add_of_le' he
  obtain ⟨n, rfl⟩ := Nat.exists_eq_add_of_le' (he.trans hew)
  apply Nat.div_eq_of_lt_le <;> simp only [Nat.add_sub_cancel] <;> nlinarith

/-! ### The backward map (R37) -/

theorem ceilDiv_le_iff {b : Nat} (hb : 1 ≤ b) (a n : Nat) : ceilDiv a b ≤ n ↔ a ≤ b * n :=
  ceilDiv_le_iff_le_mul hb

/-- R37: `firstOffset` is the smallest window offset whose source offset is t or more. -/
theorem firstOffset_le_iff {w e : Nat} (hw : 1 ≤ w) (he : 1 ≤ e) (t i : Nat) :
    firstOffset w e t ≤ i ↔ t ≤ mapOffset w e i := by
  have hexpand : (2 * i + 1) * e = 2 * e * i + e := by ring
  rw [firstOffset, ceilDiv_le_iff (by omega), le_mapOffset_iff hw, hexpand]
  omega

/-- R37: the window offsets that take a source offset are an interval. -/
theorem mapOffset_eq_iff {w e : Nat} (hw : 1 ≤ w) (he : 1 ≤ e) (t i : Nat) :
    mapOffset w e i = t ↔ firstOffset w e t ≤ i ∧ i < firstOffset w e (t + 1) := by
  rw [firstOffset_le_iff hw he, ← not_le, firstOffset_le_iff hw he]
  omega

/-- R37: the window offsets of the crop lie in the window. -/
theorem firstOffset_le_width {w e t : Nat} (hw : 1 ≤ w) (he : 1 ≤ e) (ht : t ≤ e) : firstOffset w e t ≤ w := by
  rw [firstOffset_le_iff hw he, le_mapOffset_iff hw]
  nlinarith

/-- `firstOffset` is the ceiling of (2 w t - e) / (2 e): it lies less than 1 above the quotient, and not below it. -/
theorem firstOffset_bounds {w e : Nat} (hw : 1 ≤ w) (he : 1 ≤ e) (t : Nat) :
    2 * w * t ≤ 2 * e * firstOffset w e t + e ∧ 2 * e * firstOffset w e t < 2 * w * t + e := by
  have hmeets := (firstOffset_le_iff hw he t _).mp le_rfl
  rw [le_mapOffset_iff hw] at hmeets
  refine ⟨by linarith, ?_⟩
  cases hf : firstOffset w e t with
  | zero => omega
  | succ k =>
    have hbefore : ¬ t ≤ mapOffset w e k := by rw [← firstOffset_le_iff hw he]; omega
    rw [le_mapOffset_iff hw] at hbefore
    linarith

/-! ### How often a source offset is taken (R36) -/

theorem countP_range_between (lo hi n : Nat) :
    ((List.range n).countP fun i => decide (lo ≤ i ∧ i < hi)) = min n hi - lo := by
  induction n with
  | zero => simp
  | succ n ih =>
    rw [List.range_succ, List.countP_append, ih, List.countP_singleton]
    by_cases h : lo ≤ n ∧ n < hi <;> simp [h] <;> omega

/-- The number of window offsets that take source offset t. -/
theorem countP_mapOffset {w e t : Nat} (hw : 1 ≤ w) (ht : t < e) :
    ((List.range w).countP fun i => decide (mapOffset w e i = t)) = firstOffset w e (t + 1) - firstOffset w e t := by
  have he : 1 ≤ e := by omega
  simp only [mapOffset_eq_iff hw he]
  rw [countP_range_between, min_eq_right (firstOffset_le_width hw he ht)]

/-- A number less than 1 away from w / e is its floor or its ceiling. -/
theorem eq_div_or_eq_ceilDiv {w e d : Nat} (hlow : w < (d + 1) * e) (hhigh : d * e < w + e) :
    d = w / e ∨ d = ceilDiv w e := by
  rcases le_or_gt (d * e) w with h | h
  · exact .inl (Nat.div_eq_of_lt_le h hlow).symm
  · refine .inr (Nat.div_eq_of_lt_le ?_ ?_).symm
    · omega
    · rw [Nat.succ_mul]
      omega

/-- R36: enlarging, the next source offset begins at a later window offset. -/
theorem firstOffset_lt_succ {w e : Nat} (he : 1 ≤ e) (hew : e ≤ w) (t : Nat) :
    firstOffset w e t < firstOffset w e (t + 1) := by
  have hw := he.trans hew
  obtain ⟨-, hhere⟩ := firstOffset_bounds hw he t
  obtain ⟨hnext, -⟩ := firstOffset_bounds hw he (t + 1)
  nlinarith

/-- R36: enlarging, every source offset of the crop is taken. -/
theorem exists_mapOffset_eq {w e t : Nat} (hew : e ≤ w) (ht : t < e) : ∃ i, i < w ∧ mapOffset w e i = t := by
  have he : 1 ≤ e := by omega
  have hw := he.trans hew
  have hlt := firstOffset_lt_succ he hew t
  have hwidth : firstOffset w e (t + 1) ≤ w := firstOffset_le_width hw he ht
  exact ⟨firstOffset w e t, by omega, (mapOffset_eq_iff hw he t _).mpr ⟨le_rfl, hlt⟩⟩

/-- R36: enlarging, every source offset of the crop is taken floor(w / e) or ceil(w / e) times. -/
theorem countP_mapOffset_floor_or_ceil {w e t : Nat} (hew : e ≤ w) (ht : t < e) :
    ((List.range w).countP fun i => decide (mapOffset w e i = t)) = w / e ∨
      ((List.range w).countP fun i => decide (mapOffset w e i = t)) = ceilDiv w e := by
  have he : 1 ≤ e := by omega
  have hw := he.trans hew
  obtain ⟨hlow, hhigh⟩ := firstOffset_bounds hw he t
  obtain ⟨hlow', hhigh'⟩ := firstOffset_bounds hw he (t + 1)
  obtain ⟨d, hd⟩ := Nat.exists_eq_add_of_le (firstOffset_lt_succ he hew t).le
  rw [countP_mapOffset hw ht, hd, Nat.add_sub_cancel_left]
  rw [hd] at hlow' hhigh'
  exact eq_div_or_eq_ceilDiv (by linarith) (by linarith)

/-! ### Source lines that feed no row -/

theorem mem_span {lo hi i : Nat} : i ∈ span lo hi ↔ lo ≤ i ∧ i < hi := by
  simp only [span, List.mem_map, List.mem_range]
  exact ⟨by rintro ⟨k, hk, rfl⟩; omega, fun h => ⟨i - lo, by omega, by omega⟩⟩

/-- R66, R67: the offsets fed are those of the visible part that the forward map takes between the two source offsets. -/
theorem mem_fedOffsets {size ext : Nat} (hs : 1 ≤ size) (he : 1 ≤ ext) (ta tb start len i : Nat) :
    i ∈ fedOffsets size ext ta tb start len ↔
      (ta ≤ mapOffset size ext i ∧ mapOffset size ext i ≤ tb) ∧ start ≤ i ∧ i < start + len := by
  have hlast : i < firstOffset size ext (tb + 1) ↔ mapOffset size ext i ≤ tb := by
    rw [← not_le, firstOffset_le_iff hs he]
    omega
  rw [fedOffsets, mem_span, max_le_iff, lt_min_iff, firstOffset_le_iff hs he, hlast]
  tauto

/-- R66: a fed row is a visible row that takes the strip's line. -/
theorem of_mem_fedRows {r : WinRec} {c : Crop} {v : VisRect} {line j : Nat} (hh : 1 ≤ r.h) (hc : 1 ≤ c.ch)
    (hj : j ∈ fedRows r c v line) : c.cy + mapOffset r.h c.ch j = line ∧ j < v.y0 - r.y + v.h := by
  unfold fedRows at hj
  split at hj
  case isTrue hline =>
    obtain ⟨⟨hlow, hhigh⟩, -, hlast⟩ := (mem_fedOffsets hh hc ..).mp hj
    exact ⟨by omega, hlast⟩
  case isFalse => simp at hj

/-- R36: a source line that no row of the window takes is dropped. -/
theorem stripWrites_eq_nil {r : WinRec} {src : SourceRec} {v : VisRect} {st : Strip} (hh : 1 ≤ r.h)
    (hc : 1 ≤ (effectiveCrop r src).ch)
    (hdrop : ∀ j, j < r.h → (effectiveCrop r src).cy + mapOffset r.h (effectiveCrop r src).ch j ≠ st.line)
    (hvis : v.y0 - r.y + v.h ≤ r.h) : stripWrites r src v st = [] := by
  have hrows : fedRows r (effectiveCrop r src) v st.line = [] := by
    rw [List.eq_nil_iff_forall_not_mem]
    intro j hj
    obtain ⟨htakes, hlast⟩ := of_mem_fedRows hh hc hj
    exact hdrop j (by omega) htakes
  rw [stripWrites, hrows, List.flatMap_nil]

/-- Settles O53: the rises by the forward map, the repeats by the length of the interval between `firstOffset` at t and at
t + 1, and the dropped line by the rows that a strip feeds. -/
theorem mapIsMonotonic : Obligations.MapIsMonotonic := by
  unfold Obligations.MapIsMonotonic
  refine ⟨?never_falls, ?enlarging, ?reducing, fun _ _ _ _ => stripWrites_eq_nil⟩
  case never_falls => exact fun w e i hw _ => mapOffset_add_le (q := 0) hw (by omega) i
  case enlarging =>
    intro w e he hew
    exact ⟨mapOffset_succ_le (he.trans hew) (by omega), mapOffset_zero he hew, mapOffset_last he hew,
      fun t ht => ⟨exists_mapOffset_eq hew ht, countP_mapOffset_floor_or_ceil hew ht⟩⟩
  case reducing =>
    intro w e i hw hwe
    have hceil : e ≤ w * ceilDiv e w := (ceilDiv_le_iff hw e _).mp le_rfl
    exact ⟨mapOffset_add_le hw (by omega) i, mapOffset_succ_le hw (by rw [Nat.mul_comm]; exact hceil) i⟩

end Sys2Proof.Machine
end

section
/-! The colour of a source pixel (02_picture_mapping.md, R43, and Table 2-2): the widening is the 8-bit value with its own
top two bits appended, and a store pixel and its colour determine each other. -/

namespace Sys2Proof.Machine

/-- Bits put together, as a number. -/
theorem toNat_append_eq_add {m n : Nat} (a : BitVec m) (b : BitVec n) : (a ++ b).toNat = a.toNat * 2 ^ n + b.toNat := by
  rw [BitVec.toNat_append, ← Nat.shiftLeft_add_eq_or_of_lt b.isLt, Nat.shiftLeft_eq]

/-- R43: the widening never leaves the 10 bits, so nothing is cut off. -/
@[simp] theorem widen8_toNat (v : Byte) : (widen8 v).toNat = 4 * v.toNat + v.toNat / 64 := by
  have hv : v.toNat < 256 := v.isLt
  rw [widen8, BitVec.toNat_ofNat]
  omega

theorem widen8_strictMono {u v : Byte} (h : u.toNat < v.toNat) : (widen8 u).toNat < (widen8 v).toNat := by
  rw [widen8_toNat, widen8_toNat]
  omega

/-- R43: the widening repeats the top two bits below. -/
theorem widen8_eq_append (v : Byte) : widen8 v = v ++ v.extractLsb' 6 2 := by
  apply BitVec.eq_of_toNat_eq
  have hv : v.toNat < 256 := v.isLt
  rw [widen8_toNat, toNat_append_eq_add, BitVec.extractLsb'_toNat, Nat.shiftRight_eq_div_pow]
  omega

theorem widen8_low_bits (v : Byte) :
    (widen8 v).getLsbD 0 = v.getLsbD 6 ∧ (widen8 v).getLsbD 1 = v.getLsbD 7 := by
  have happend (i : Nat) : (widen8 v).getLsbD i = (v ++ v.extractLsb' 6 2).getLsbD i := by rw [widen8_eq_append]
  rw [happend, happend, BitVec.getLsbD_append, BitVec.getLsbD_append]
  simp

/-- R167: the pad bits do not reach the colour. -/
theorem Colour.ofWord_and_mask (w : BitVec 32) : Colour.ofWord (w &&& 0x3FFFFFFF) = Colour.ofWord w := by
  have hr : (0x3FFFFFFF#32).extractLsb' 20 10 = BitVec.allOnes 10 := by decide
  have hg : (0x3FFFFFFF#32).extractLsb' 10 10 = BitVec.allOnes 10 := by decide
  have hb : (0x3FFFFFFF#32).extractLsb' 0 10 = BitVec.allOnes 10 := by decide
  simp only [Colour.ofWord, BitVec.extractLsb'_and, BitVec.ofNat_eq_ofNat, hr, hg, hb, BitVec.and_allOnes]

theorem Colour.components_lt (c : Colour) : c.r.toNat < 1024 ∧ c.g.toNat < 1024 ∧ c.b.toNat < 1024 :=
  ⟨c.r.isLt, c.g.isLt, c.b.isLt⟩

/-- R167: the three components stand one above the other in the word. -/
theorem Colour.toNat_word (c : Colour) : c.word.toNat = c.r.toNat * 2 ^ 20 + c.g.toNat * 2 ^ 10 + c.b.toNat := by
  simp only [Colour.word, BitVec.toNat_cast, toNat_append_eq_add, BitVec.toNat_ofNat]
  omega

theorem Colour.word_spare_bits (c : Colour) : c.word.getLsbD 30 = false ∧ c.word.getLsbD 31 = false := by
  obtain ⟨hr, hg, hb⟩ := c.components_lt
  have hlt : c.word.toNat < 2 ^ 30 := by
    rw [Colour.toNat_word]
    omega
  exact ⟨Nat.testBit_lt_two_pow hlt, Nat.testBit_lt_two_pow (hlt.trans (by decide))⟩

@[simp] theorem Colour.ofWord_word (c : Colour) : Colour.ofWord c.word = c := by
  have hrgb := c.components_lt
  rw [Colour.ofWord, Colour.mk.injEq]
  refine ⟨?_, ?_, ?_⟩ <;> apply BitVec.eq_of_toNat_eq <;>
    rw [BitVec.extractLsb'_toNat, Colour.toNat_word, Nat.shiftRight_eq_div_pow] <;> omega

/-- Settles O55: the widening by its value and by its bits, the formats by the arms of `stripColour`, and the store pixel by
the fields of its word. -/
theorem colourWidening : Obligations.ColourWidening := by
  unfold Obligations.ColourWidening
  exact ⟨widen8_toNat, by decide, by decide, fun _ _ => widen8_strictMono, widen8_low_bits, by decide,
    fun _ _ => rfl, fun w => (Colour.ofWord_and_mask w).symm, fun _ _ => rfl, fun _ _ => rfl,
    fun c => ⟨c.word_spare_bits.1, c.word_spare_bits.2, c.ofWord_word⟩⟩

end Sys2Proof.Machine
end

section
/-! The sources after power-on reset (03_sources.md, R60): what POWER_ON_RESET leaves in the Source Tracker, entry by entry
of its power-on tables. -/

namespace Sys2Proof.Machine

@[simp] theorem powerOnReset_src (s : State) : s.powerOnReset.src = Tracker.powerOn := rfl

@[simp] theorem Tracker.powerOn_records_get (n : Fin 32) : Tracker.powerOn.records.get n = SourceRec.default :=
  Table.get_fill _ n

@[simp] theorem Tracker.powerOn_states_get (n : Fin 32) : Tracker.powerOn.states.get n = SourceTrack.idle :=
  Table.get_fill _ n

/-- The default record of Table 3-6 passes the checks of R46. -/
theorem SourceRec.default_ok : SourceRec.default.ok = true := by decide

/-- Settles O4: the Source Tracker takes its power-on value whatever the state before, so each source has the record
`SourceRec.default` and the counts of `SourceTrack.idle`. -/
theorem powerOnResetSources : Obligations.PowerOnResetSources := by
  unfold Obligations.PowerOnResetSources
  intro s
  refine ⟨s.powerOnReset, exec_powerOnReset s, fun n => ?_⟩
  rw [powerOnReset_src, Tracker.powerOn_records_get, Tracker.powerOn_states_get]
  exact ⟨rfl, SourceRec.default_ok, rfl, rfl, rfl, rfl, rfl, rfl, rfl, rfl, rfl, rfl, rfl, rfl, rfl, rfl⟩

end Sys2Proof.Machine
end

section
/-! The Frame Timer after power-on reset (07_wall_timing_and_frame_lock.md, R125): POWER_ON_RESET leaves the power-on timer,
with its setup in force, and a power-on Command Unit, in which no event is latched. -/

namespace Sys2Proof.Machine

@[simp] theorem powerOnReset_timer (s : State) : s.powerOnReset.timer = Timer.powerOn := rfl

@[simp] theorem powerOnReset_cmd (s : State) : s.powerOnReset.cmd = CommandUnit.powerOn := rfl

/-! ### The sets of event kinds at power-on -/

/-- R164: the priorities are 1 to 12, so every kind has its bit in a set of kinds. -/
theorem EventKind.priority_bounds (k : EventKind) : 1 ≤ k.priority ∧ k.priority ≤ 12 := by
  cases k <;> decide

@[simp] theorem kindIn_zero (k : EventKind) : kindIn 0 k = false := BitVec.getLsbD_zero

@[simp] theorem kindIn_allOnes (k : EventKind) : kindIn (BitVec.allOnes 12) k = true := by
  obtain ⟨hlow, hhigh⟩ := k.priority_bounds
  rw [kindIn, BitVec.getLsbD_allOnes, decide_eq_true_iff]
  omega

theorem Setup.powerOn_eventMask : Setup.powerOn.eventMask = BitVec.allOnes 12 := by decide

/-- R125: every event kind is in the event mask. -/
theorem kindIn_powerOn_eventMask (k : EventKind) : kindIn Setup.powerOn.eventMask k = true := by
  rw [Setup.powerOn_eventMask, kindIn_allOnes]

/-- R125, R164: no kind is latched, LOCK_CHANGE for entering FREE neither. -/
theorem kindIn_powerOn_attention (k : EventKind) : kindIn CommandUnit.powerOn.attention k = false := kindIn_zero k

/-- Settles O6: the Frame Timer and the Command Unit take their power-on values whatever the state before, so the fields are
those of `Timer.powerOn` and `Setup.powerOn`; the event mask holds every kind and the latched events hold none. -/
theorem powerOnResetTimer : Obligations.PowerOnResetTimer := by
  unfold Obligations.PowerOnResetTimer
  intro s
  refine ⟨s.powerOnReset, exec_powerOnReset s, ?_⟩
  rw [powerOnReset_timer, powerOnReset_cmd]
  exact ⟨rfl, rfl, rfl, rfl, rfl, rfl, kindIn_powerOn_eventMask, rfl, rfl, rfl, rfl, rfl, rfl, rfl, rfl, rfl, rfl, rfl, rfl,
    rfl, rfl, rfl, rfl, rfl, rfl, rfl, rfl, rfl, rfl, rfl, rfl, kindIn_powerOn_attention .lockChange⟩

end Sys2Proof.Machine
end

section
/-! The Cue and Trigger Unit after power-on reset (08_cues_tours_and_alarm_triggers.md, R140), and the trigger units that
R136 does not evaluate. -/

namespace Sys2Proof.Machine

@[simp] theorem powerOnReset_cues (s : State) : s.powerOnReset.cues = CueUnit.powerOn := rfl

@[simp] theorem CueUnit.powerOn_triggers_get (i : Fin 8) : CueUnit.powerOn.triggers.get i = Trigger.default :=
  Table.get_fill _ i

@[simp] theorem CueUnit.powerOn_strobes_get (i : Fin 8) : CueUnit.powerOn.strobes.get i = false :=
  Table.get_fill _ i

/-- R136: a unit with flag select 0 reads no flag word. -/
theorem Trigger.reads_of_flagSelect_zero {u : Trigger} (h : u.flagSelect = 0) (word : BitVec 32) : u.reads word = none :=
  if_pos h

/-- R136: without a strobe, a unit that has no previous value does not act. -/
theorem SceneWork.unitActs_of_reads_none (k : SceneWork) {u : Trigger} {prev : BitVec 32} (h : u.reads prev = none)
    (cur : BitVec 32) : k.unitActs u false prev cur = k := by
  simp [SceneWork.unitActs, h]

/-- Settles O7: the Cue and Trigger Unit and the Frame Timer take their power-on values whatever the state before, so every
unit is `Trigger.default` with no strobe; a unit with flag select 0 has no previous value, and so does not act. -/
theorem powerOnResetCues : Obligations.PowerOnResetCues := by
  unfold Obligations.PowerOnResetCues
  refine ⟨fun s => ⟨s.powerOnReset, exec_powerOnReset s, ?power_on⟩, fun k u prev cur hsel => ?not_evaluated⟩
  case power_on =>
    rw [powerOnReset_cues, powerOnReset_timer]
    refine ⟨rfl, rfl, rfl, fun i => ?_, rfl, rfl, rfl⟩
    rw [CueUnit.powerOn_triggers_get, CueUnit.powerOn_strobes_get]
    exact ⟨rfl, rfl, rfl, rfl, rfl, rfl⟩
  case not_evaluated =>
    exact k.unitActs_of_reads_none (Trigger.reads_of_flagSelect_zero hsel prev) cur

end Sys2Proof.Machine
end

section
/-! The Ring Port at the resets (09_the_wall_ring.md, R153): what a link state change does to the Ring Port and latches, how
the link settles at the end of a tile reset, and what the TILE_RESET reply offered there leaves as it was. -/

namespace Sys2Proof.Machine

/-- POWER_ON_RESET_END has one meaning in every state. -/
theorem exec_powerOnResetEnd (s : State) : exec .powerOnResetEnd s = .next s.powerOnResetEnd := rfl

/-- TILE_RESET_END has one meaning in every state. -/
theorem exec_tileResetEnd (s : State) : exec .tileResetEnd s = .next s.tileResetEnd := rfl

theorem exec_signalPresent (s : State) : exec .signalPresent s = .next s.signalPresent := rfl

theorem exec_signalLost (s : State) : exec .signalLost s = .next s.signalLost := rfl

@[simp] theorem powerOnReset_ring (s : State) : s.powerOnReset.ring =
    { Ring.powerOn with phase := .powerOnReset, signal := s.ring.signal, outbound := s.ring.outbound } := rfl

/-- The picture path is kept where each of its blocks is. -/
theorem PictureKept.of_eq {s t : State} (hscene : t.scene = s.scene) (hsrc : t.src = s.src) (hstore : t.store = s.store)
    (hcomp : t.comp = s.comp) (hcues : t.cues = s.cues) (hfree : t.freeIdx = s.freeIdx) : PictureKept s t :=
  ⟨hscene, hsrc, ⟨hstore, fun a => by rw [hstore]⟩, hcomp, hcues, hfree⟩

/-! ### Latches (R164, R165) -/

/-- A latch does what `Latched` says: the STATUS cell holds nothing of the slot it is put into. -/
theorem latched_latch (k : EventKind) (s : State) : Latched k s (latch k s) := by
  rw [latch_eq]
  exact ⟨rfl, ⟨rfl, rfl, rfl⟩, rfl⟩

/-- The end of bypass touches nothing that a latch reads. -/
theorem latched_endBypass_iff (k : EventKind) (s t : State) : Latched k s.endBypass t ↔ Latched k s t := Iff.rfl

/-- A STATUS cell does not tell which replies wait. -/
theorem latched_replies_iff (k : EventKind) (s t : State) (owed : Option (Byte × Byte)) (queue : List (List Byte)) :
    Latched k s { t with ring := { t.ring with resetReply := owed, replies := queue } } ↔ Latched k s t := Iff.rfl

/-! ### Changes of the link state (R143, R152) -/

theorem satInc16_eq_min (n : Nat) : satInc16 n = min 65535 (n + 1) := rfl

/-- R143, R152: the Ring Port after a change of the link state; the slot is LINK_CHANGE's. -/
theorem changeLink_ring (l : LinkState) (s : State) :
    (s.changeLink l).ring = { s.ring with
      link := l
      runCount := 0
      alignLosses := if s.ring.link = .up then min 65535 (s.ring.alignLosses + 1) else s.ring.alignLosses
      slot := (s.changeLink l).ring.slot } := by
  rw [State.changeLink, latch_eq, satInc16_eq_min]

/-- R152: every change of the link state latches LINK_CHANGE. -/
theorem latched_changeLink (l : LinkState) (s : State) : Latched .linkChange s (s.changeLink l) :=
  latched_latch .linkChange _

/-! ### The ends of reset (R151, R153) -/

theorem powerOnResetEnd_of_signal {s : State} (hphase : s.ring.phase = .powerOnReset) (hsignal : s.ring.signal = true) :
    s.powerOnResetEnd = s.endBypass.changeLink .aligning := by
  rw [State.powerOnResetEnd, if_pos hphase, if_pos hsignal]

theorem powerOnResetEnd_of_no_signal {s : State} (hphase : s.ring.phase = .powerOnReset)
    (hsignal : s.ring.signal = false) : s.powerOnResetEnd = s.endBypass := by
  simp [State.powerOnResetEnd, hphase, hsignal]

/-- R151, R113: power-on reset ends with the tile out of bypass and a panel frame at line 0, with or without a signal. -/
theorem powerOnResetEnd_running {s : State} (hphase : s.ring.phase = .powerOnReset) :
    s.powerOnResetEnd.ring.phase = .running ∧ s.powerOnResetEnd.timer = s.timer.beginFrame := by
  cases hsignal : s.ring.signal with
  | true =>
    rw [powerOnResetEnd_of_signal hphase hsignal, changeLink_ring, (changeLink_keeps .aligning s.endBypass).1]
    exact ⟨rfl, rfl⟩
  | false =>
    rw [powerOnResetEnd_of_no_signal hphase hsignal]
    exact ⟨rfl, rfl⟩

theorem settleLink_of_kept {s : State} (h : s.ring.linkAfterReset = s.ring.link) :
    s.settleLink = s.mapRing fun r => { r with runCount := 0 } := if_pos h

theorem settleLink_of_changed {s : State} (h : s.ring.linkAfterReset ≠ s.ring.link) :
    s.settleLink = s.changeLink s.ring.linkAfterReset := if_neg h

/-- R153: the settled link, and what settling leaves of the Ring Port. -/
theorem settleLink_ring (s : State) :
    s.settleLink.ring.link = s.ring.linkAfterReset ∧ s.settleLink.ring.runCount = 0 ∧
    s.settleLink.ring.phase = s.ring.phase ∧ s.settleLink.ring.replies = s.ring.replies ∧
    s.settleLink.ring.life = s.ring.life ∧ s.settleLink.ring.outbound = s.ring.outbound := by
  by_cases h : s.ring.linkAfterReset = s.ring.link
  · rw [settleLink_of_kept h, h]
    exact ⟨rfl, rfl, rfl, rfl, rfl, rfl⟩
  · rw [settleLink_of_changed h, changeLink_ring]
    exact ⟨rfl, rfl, rfl, rfl, rfl, rfl⟩

/-- R148, R163: with room in the queue, the TILE_RESET reply changes the queue and is owed no more. -/
theorem offerResetReply_of_room {s : State} (hroom : s.ring.replies.length < 8) :
    ∃ queue, s.offerResetReply = { s with ring := { s.ring with resetReply := none, replies := queue } } := by
  unfold State.offerResetReply
  split
  next hnone => exact ⟨s.ring.replies, by rw [← hnone]⟩
  next => exact ⟨_, if_pos hroom⟩

/-- R151, R163: with room in the queue, a tile reset ends with the link settled and the queue of replies changed. -/
theorem tileResetEnd_of_room {s : State} (hphase : s.ring.phase = .tileReset) (hroom : s.ring.replies.length < 8) :
    ∃ queue, s.tileResetEnd = { s.endBypass.settleLink with
      ring := { s.endBypass.settleLink.ring with resetReply := none, replies := queue } } := by
  obtain ⟨-, -, -, hreplies, -, -⟩ := settleLink_ring s.endBypass
  rw [State.tileResetEnd, if_pos hphase]
  exact offerResetReply_of_room (by rw [hreplies]; exact hroom)

/-! ### Reports of the receiver during a reset (R153) -/

theorem signalPresent_of_not_running {s : State} (h : s.ring.phase ≠ .running) :
    s.signalPresent = { s with ring := { s.ring with signal := true } } := if_neg fun hrun => h hrun.1

theorem signalLost_of_not_running {s : State} (h : s.ring.phase ≠ .running) :
    s.signalLost = { s with ring := { s.ring with signal := false, signalHeld := false } } := if_neg fun hrun => h hrun.1

/-- Settles O8: power-on reset and the start of a tile reset are read off their definitions; at either end the link is left
or changed, and a change is `changeLink`, whose rule gives the Ring Port and the latch. -/
theorem ringAfterResets : Obligations.RingAfterResets := by
  unfold Obligations.RingAfterResets
  refine ⟨fun s => ⟨s.powerOnReset, exec_powerOnReset s, ?powerOn⟩,
    fun s hphase hdown hrun => ⟨s.powerOnResetEnd, exec_powerOnResetEnd s, ?powerOnEnd⟩,
    fun s originator sequence => ⟨_, rfl, ?tileStart⟩, fun s hphase => ?receiver,
    fun s hphase hroom => ⟨s.tileResetEnd, exec_tileResetEnd s, ?tileEnd⟩⟩
  case powerOn =>
    rw [powerOnReset_ring]
    exact ⟨rfl, rfl, rfl, rfl, rfl, rfl, rfl, rfl, rfl, rfl, rfl⟩
  case powerOnEnd =>
    obtain ⟨hscene, hsrc, hstore, hcomp, hcues, hfree, -⟩ := powerOnResetEnd_keeps s
    obtain ⟨hrunning, htimer⟩ := powerOnResetEnd_running hphase
    refine ⟨hrunning, htimer, .of_eq hscene hsrc hstore hcomp hcues hfree, fun hsignal => ?present,
      fun hsignal => ?absent⟩
    case present =>
      have hnotUp : s.endBypass.ring.link ≠ .up := by simp [State.endBypass, hdown]
      rw [powerOnResetEnd_of_signal hphase hsignal]
      refine ⟨(latched_endBypass_iff ..).mp (latched_changeLink ..), ?_⟩
      rw [changeLink_ring, if_neg hnotUp, ← hrun]
      rfl
    case absent =>
      rw [powerOnResetEnd_of_no_signal hphase hsignal]
      exact ⟨rfl, rfl⟩
  case tileStart => exact ⟨rfl, rfl, rfl, rfl, rfl, rfl, rfl, rfl, rfl, rfl, rfl⟩
  case receiver =>
    have hreset : s.ring.phase ≠ .running := by simp [hphase]
    rw [exec_signalLost, exec_signalPresent, signalLost_of_not_running hreset, signalPresent_of_not_running hreset]
    exact ⟨rfl, rfl⟩
  case tileEnd =>
    obtain ⟨hscene, hsrc, hstore, hcomp, hcues, hfree, -⟩ := tileResetEnd_keeps s
    obtain ⟨hlink, hrun, hrunning, -, hlife, houtbound⟩ := settleLink_ring s.endBypass
    obtain ⟨htimer, -⟩ := settleLink_keeps s.endBypass
    have hpicture : PictureKept s s.tileResetEnd := .of_eq hscene hsrc hstore hcomp hcues hfree
    obtain ⟨queue, hend⟩ := tileResetEnd_of_room hphase hroom
    rw [hend] at hpicture ⊢
    refine ⟨hrunning, hrun, hlink, fun hkept => ?kept, fun hchanged => ?changed, hlife, houtbound, htimer, hpicture⟩
    case kept =>
      rw [settleLink_of_kept (hlink.symm.trans hkept)]
      exact ⟨rfl, rfl, rfl⟩
    case changed =>
      have hsettled : s.endBypass.settleLink = s.endBypass.changeLink s.endBypass.ring.linkAfterReset :=
        settleLink_of_changed fun h => hchanged (hlink.trans h)
      rw [latched_replies_iff, hsettled, changeLink_ring]
      exact ⟨(latched_endBypass_iff ..).mp (latched_changeLink ..), rfl⟩

end Sys2Proof.Machine
end

section
/-! Frames that several rules share: what a latch changes, what the lock rules of the Frame Timer leave of it, and the frame
mark in its stages. -/

namespace Sys2Proof.Machine

/-! ### Latches on the way (R164, R165) -/

/-- Between s and t the outer blocks changed by latches and STATUS cells alone. -/
def OuterLatched (s t : State) : Prop := RingKeptButSlot s t ∧ CommandKept s t

theorem OuterLatched.of_eq {s t : State} (hring : t.ring = s.ring) (hcmd : t.cmd = s.cmd) : OuterLatched s t := by
  unfold OuterLatched RingKeptButSlot CommandKept
  rw [hring, hcmd]
  exact ⟨rfl, rfl, rfl, rfl⟩

theorem OuterLatched.refl (s : State) : OuterLatched s s := .of_eq rfl rfl

theorem OuterLatched.trans {s t u : State} (h : OuterLatched s t) (k : OuterLatched t u) : OuterLatched s u := by
  obtain ⟨hring, haddress, horigins, hcount⟩ := h
  obtain ⟨kring, kaddress, korigins, kcount⟩ := k
  refine ⟨?_, kaddress.trans haddress, korigins.trans horigins, kcount.trans hcount⟩
  unfold RingKeptButSlot at *
  rw [kring, hring]

theorem OuterLatched.latch (k : EventKind) (s : State) : OuterLatched s (latch k s) := by
  rw [latch_eq]
  exact ⟨rfl, rfl, rfl, rfl⟩

/-- A latch after an update of the inner blocks. -/
theorem OuterLatched.latch_of_eq {s t : State} (k : EventKind) (hring : t.ring = s.ring) (hcmd : t.cmd = s.cmd) :
    OuterLatched s (Machine.latch k t) := (OuterLatched.of_eq hring hcmd).trans (.latch k t)

/-! ### The lock rules (R117 to R119, R122) -/

/-- Between a and b the lock state, its counts and the gate changed alone. -/
def LockOnly (a b : Timer) : Prop := b = { a with lock := b.lock, good := b.good, bad := b.bad, gate := b.gate }

theorem LockOnly.eq_update {a b : Timer} (h : LockOnly a b) :
    ∃ (l : LockState) (good bad : Nat) (g : Gate), b = { a with lock := l, good := good, bad := bad, gate := g } :=
  ⟨_, _, _, _, h⟩

/-- A rule of the lock: it works on the lock state, its counts and the gate, and latches. -/
def LockRule (s t : State) : Prop := LockOnly s.timer t.timer ∧ OuterLatched s t ∧ PictureKept s t

theorem PictureKept.refl (s : State) : PictureKept s s := .of_eq rfl rfl rfl rfl rfl rfl

theorem PictureKept.trans {s t u : State} (h : PictureKept s t) (k : PictureKept t u) : PictureKept s u := by
  obtain ⟨hscene, hsrc, ⟨hstore, -⟩, hcomp, hcues, hfree⟩ := h
  obtain ⟨kscene, ksrc, ⟨kstore, -⟩, kcomp, kcues, kfree⟩ := k
  exact .of_eq (kscene.trans hscene) (ksrc.trans hsrc) (kstore.trans hstore) (kcomp.trans hcomp) (kcues.trans hcues)
    (kfree.trans hfree)

theorem LockRule.refl (s : State) : LockRule s s := ⟨rfl, .refl s, .refl s⟩

theorem LockRule.trans {s t u : State} (h : LockRule s t) (k : LockRule t u) : LockRule s u := by
  refine ⟨?_, h.2.1.trans k.2.1, h.2.2.trans k.2.2⟩
  obtain ⟨h, -⟩ := h
  obtain ⟨k, -⟩ := k
  unfold LockOnly at *
  rw [k, h]

theorem LockRule.update (s : State) (l : LockState) (good bad : Nat) (g : Gate) :
    LockRule s { s with timer := { s.timer with lock := l, good := good, bad := bad, gate := g } } :=
  ⟨rfl, .of_eq rfl rfl, .refl s⟩

theorem LockRule.latch (k : EventKind) (s : State) : LockRule s (latch k s) := by
  obtain ⟨htimer, hscene, hsrc, hstore, hcomp, hcues, hfree, -⟩ := latch_keeps k s
  refine ⟨?_, .latch k s, .of_eq hscene hsrc hstore hcomp hcues hfree⟩
  rw [htimer]
  rfl

theorem changeLock_rule (s : State) (l : LockState) : LockRule s (s.changeLock l) :=
  (LockRule.update s l s.timer.good s.timer.bad s.timer.gate).trans (.latch _ _)

theorem openGate_rule (s : State) : LockRule s s.openGate := by
  unfold State.openGate
  split
  · exact (LockRule.update s s.timer.lock s.timer.good s.timer.bad .opened).trans (.latch _ _)
  · exact .refl s

theorem enterLocked_rule (s : State) : LockRule s s.enterLocked := (changeLock_rule s .locked).trans (openGate_rule _)

theorem lockAcquired_rule (s : State) : LockRule s s.lockAcquired := by
  unfold State.lockAcquired
  split
  · exact (LockRule.update s s.timer.lock 0 0 s.timer.gate).trans (enterLocked_rule _)
  · exact .refl s

theorem lockBadLimit_rule (s : State) : LockRule s s.lockBadLimit := by
  unfold State.lockBadLimit
  split
  · exact (LockRule.update s s.timer.lock 0 0 s.timer.gate).trans (changeLock_rule _ _)
  · exact .refl s

theorem acquireMissedLimit_rule (s : State) : LockRule s s.acquireMissedLimit := by
  unfold State.acquireMissedLimit
  split
  · exact (LockRule.update s s.timer.lock 0 s.timer.bad s.timer.gate).trans (changeLock_rule _ _)
  · exact .refl s

theorem holdoverLimit_rule (s : State) : LockRule s s.holdoverLimit := by
  unfold State.holdoverLimit
  split
  · exact changeLock_rule _ _
  · exact .refl s

theorem startTimeout_rule (s : State) : LockRule s s.startTimeout := by
  unfold State.startTimeout
  split
  · exact openGate_rule s
  · exact .refl s

theorem retime_rule (s : State) : LockRule s s.retime := by
  unfold State.retime
  split
  · exact (LockRule.update s s.timer.lock 0 0 s.timer.gate).trans (changeLock_rule _ _)
  · exact LockRule.update s s.timer.lock 0 s.timer.bad s.timer.gate
  · exact .refl s
  · exact .refl s

theorem arriveAcquire_rule (s : State) : LockRule s s.arriveAcquire := by
  unfold State.arriveAcquire
  split
  · exact (LockRule.update s s.timer.lock _ s.timer.bad s.timer.gate).trans (lockAcquired_rule _)
  · exact LockRule.update s s.timer.lock 0 s.timer.bad s.timer.gate

theorem arriveLocked_rule (s : State) : LockRule s s.arriveLocked := by
  unfold State.arriveLocked
  split
  · exact (LockRule.update s s.timer.lock s.timer.good _ s.timer.gate).trans (lockBadLimit_rule _)
  · exact LockRule.update s s.timer.lock s.timer.good 0 s.timer.gate

theorem arriveHoldover_rule (s : State) : LockRule s s.arriveHoldover := by
  unfold State.arriveHoldover
  split
  · exact (LockRule.update s s.timer.lock s.timer.good 0 s.timer.gate).trans (enterLocked_rule _)
  · exact (LockRule.update s s.timer.lock 0 s.timer.bad s.timer.gate).trans (changeLock_rule _ _)

theorem arriveLock_rule (s : State) : LockRule s s.arriveLock := by
  unfold State.arriveLock
  split
  · exact (changeLock_rule s _).trans (arriveAcquire_rule _)
  · exact arriveAcquire_rule s
  · exact arriveLocked_rule s
  · exact arriveHoldover_rule s

/-- R115 to R118: a SYNC arrival is noted, a lock rule is applied, and the trim is set. -/
theorem syncArrival_stages (s : State) (number flags : BitVec 32) : ∃ u : State,
    LockRule { s with timer := s.timer.noteSync number flags } u ∧ s.syncArrival number flags = u.setTrim := by
  simp only [State.syncArrival]
  split
  · exact ⟨_, arriveLock_rule _, rfl⟩
  · exact ⟨_, (LockRule.latch _ _).trans (arriveLock_rule _), rfl⟩

/-- R114, R119: the missed count, and a lock rule. -/
theorem markMissed_stages (s : State) :
    LockRule { s with timer := { s.timer with
      missed := if s.timer.syncNoted then 0 else satInc 1000 s.timer.missed } } s.markMissed := by
  simp only [State.markMissed]
  split
  · exact .refl _
  · split
    · exact .refl _
    · exact (LockRule.update _ _ 0 _ _).trans (acquireMissedLimit_rule _)
    · exact (LockRule.update _ _ _ 0 _).trans (changeLock_rule _ _)
    · exact holdoverLimit_rule _

/-- R124: the setup latch puts the pending copy in force, and a lock rule follows. -/
theorem latchSetup_stages (s : State) :
    LockRule { s with timer := { s.timer with setup := s.timer.pendSetup.getD s.timer.setup, pendSetup := none } }
      s.latchSetup := by
  unfold State.latchSetup
  split
  next h =>
    rw [h]
    have : s = { s with timer := { s.timer with setup := s.timer.setup, pendSetup := none } } := by rw [← h]
    exact this ▸ .refl s
  next copy h =>
    rw [h]
    simp only [Option.getD_some]
    split
    · exact (retime_rule _).trans (.latch _ _)
    · exact .latch _ _

theorem markStart_stages (s : State) :
    LockRule { s with timer := { s.timer with startCount := satInc 1000 s.timer.startCount } } s.markStart :=
  startTimeout_rule _

/-- R114: what the Frame Timer's work at the mark leaves of the timer, but for the lock state, its counts and the gate. -/
theorem markTimer_timer (s : State) : ∃ (l : LockState) (good bad : Nat) (g : Gate), s.markTimer.timer =
    { s.timer with
      lock := l, good := good, bad := bad, gate := g
      missed := if s.timer.syncNoted then 0 else satInc 1000 s.timer.missed
      wallN := if s.timer.syncNoted then s.timer.nextN else s.timer.wallN + 1
      prevFlags := s.timer.curFlags
      curFlags := if s.timer.syncNoted then s.timer.pendFlags else s.timer.curFlags
      syncNoted := false
      setup := s.timer.pendSetup.getD s.timer.setup
      pendSetup := none
      startCount := satInc 1000 s.timer.startCount
      lineCount := 0
      lineZeroDue := true
      trim := 0
      frameLen := (s.timer.pendSetup.getD s.timer.setup).v } := by
  simp only [State.markTimer]
  have h1 := (markMissed_stages s).1
  generalize s.markMissed = m at h1 ⊢
  have h2 := (latchSetup_stages { m with timer := m.timer.adopt }).1
  generalize State.latchSetup { m with timer := m.timer.adopt } = u at h2 ⊢
  have h3 := (markStart_stages u).1
  generalize u.markStart = v at h3 ⊢
  obtain ⟨l1, good1, bad1, g1, h1⟩ := h1.eq_update
  obtain ⟨l2, good2, bad2, g2, h2⟩ := h2.eq_update
  obtain ⟨l3, good3, bad3, g3, h3⟩ := h3.eq_update
  refine ⟨l3, good3, bad3, g3, ?_⟩
  rw [h3, h2, h1]
  simp only [Timer.adopt, Timer.beginFrame]

theorem markTimer_outer (s : State) : OuterLatched s s.markTimer := by
  have h1 := (markMissed_stages s).2.1
  have h2 := (latchSetup_stages { s.markMissed with timer := s.markMissed.timer.adopt }).2.1
  have h3 := (markStart_stages (State.latchSetup { s.markMissed with timer := s.markMissed.timer.adopt })).2.1
  exact OuterLatched.trans (h1 : OuterLatched s _) (OuterLatched.trans (h2 : OuterLatched _ _) (h3 : OuterLatched _ _))

/-- The setup in force, its pending copy and the wall frame number are as before. -/
def SetupKept (s t : State) : Prop :=
  t.timer.setup = s.timer.setup ∧ t.timer.pendSetup = s.timer.pendSetup ∧ t.timer.wallN = s.timer.wallN

theorem SetupKept.of_eq {s t : State} (h : t.timer = s.timer) : SetupKept s t := by
  unfold SetupKept
  rw [h]
  exact ⟨rfl, rfl, rfl⟩

theorem LockRule.setupKept {s t : State} (h : LockRule s t) : SetupKept s t := by
  have h := h.1
  unfold LockOnly at h
  unfold SetupKept
  rw [h]
  exact ⟨rfl, rfl, rfl⟩

theorem LockRule.kept {s t : State} (h : LockRule s t) : PictureKept s t ∧ SetupKept s t := ⟨h.2.2, h.setupKept⟩

theorem syncArrival_setupKept (s : State) (number flags : BitVec 32) : SetupKept s (s.syncArrival number flags) := by
  obtain ⟨u, hu, h⟩ := syncArrival_stages s number flags
  rw [h]
  exact hu.setupKept

theorem endBypass_setupKept (s : State) : SetupKept s s.endBypass := ⟨rfl, rfl, rfl⟩

theorem powerOnResetEnd_setupKept (s : State) : SetupKept s s.powerOnResetEnd := by
  unfold State.powerOnResetEnd
  split
  · split
    · unfold SetupKept
      rw [(changeLink_keeps _ _).1]
      exact endBypass_setupKept s
    · exact endBypass_setupKept s
  · exact .of_eq rfl

theorem tileResetEnd_setupKept (s : State) : SetupKept s s.tileResetEnd := by
  unfold State.tileResetEnd
  split
  · unfold SetupKept
    rw [(offerResetReply_keeps _).1, (settleLink_keeps _).1]
    exact endBypass_setupKept s
  · exact .of_eq rfl

theorem lineStart_setupKept (s : State) : SetupKept s s.lineStart := by
  unfold State.lineStart
  split
  · unfold SetupKept
    rw [(buildLine_keeps _ _).2.2.1]
    exact ⟨rfl, rfl, rfl⟩
  · exact .of_eq rfl

/-! ### The frame mark in its stages (R114, log 5) -/

/-- What holds after a frame mark: a first property is carried to the Frame Timer's work, a second from there to the Scene
Controller's, and a third to the end, in every order of the blocks. -/
theorem frameMark_stages {P Q R : State → Prop} (s : State) (o : MarkOrder)
    (hcompP : ∀ u, P u → P u.markCompositor) (hintP : ∀ u, P u → P u.markInterval)
    (htimer : ∀ u, P u → Q u.markTimer) (hsrcQ : ∀ u, Q u → Q u.markSources)
    (hscene : ∀ u g, Q u → R (u.markScene g).1) (hstore : ∀ u h, R u → R (u.markStore h))
    (hsrcR : ∀ u, R u → R u.markSources) (hcompR : ∀ u, R u → R u.markCompositor)
    (hintR : ∀ u, R u → R u.markInterval) (hs : P s) : R (s.frameMark o) := by
  simp only [State.frameMark]
  have h0 : P (if o.compositorFirst then s.markCompositor else s) := by split; exacts [hcompP _ hs, hs]
  generalize (if o.compositorFirst then s.markCompositor else s) = s0 at h0 ⊢
  have h1 : P (if o.commandFirst then s0.markInterval else s0) := by split; exacts [hintP _ h0, h0]
  generalize (if o.commandFirst then s0.markInterval else s0) = s1 at h1 ⊢
  have h3 : Q (if o.trackerFirst then s1.markTimer.markSources else s1.markTimer) := by
    split
    exacts [hsrcQ _ (htimer _ h1), htimer _ h1]
  generalize (if o.trackerFirst then s1.markTimer.markSources else s1.markTimer) = s3 at h3 ⊢
  have h5 : ∀ h, R ((s3.markScene (decide (s1.markTimer.timer.setup.geo ≠ s1.timer.setup.geo))).1.markStore h) :=
    fun h => hstore _ h (hscene _ _ h3)
  have h6 : ∀ u, R u → R (if o.trackerFirst then u else u.markSources) := by
    intro u hu
    split
    exacts [hu, hsrcR _ hu]
  have h7 : ∀ u, R u → R (if o.compositorFirst then u else u.markCompositor) := by
    intro u hu
    split
    exacts [hu, hcompR _ hu]
  have h8 : ∀ u, R u → R (if o.commandFirst then u else u.markInterval) := by
    intro u hu
    split
    exacts [hu, hintR _ hu]
  exact h8 _ (h7 _ (h6 _ (h5 _)))

/-- A property that the work of every block keeps is kept by the frame mark. -/
theorem frameMark_induct {P : State → Prop} (s : State) (o : MarkOrder) (hcomp : ∀ u, P u → P u.markCompositor)
    (hint : ∀ u, P u → P u.markInterval) (htimer : ∀ u, P u → P u.markTimer) (hsrc : ∀ u, P u → P u.markSources)
    (hscene : ∀ u g, P u → P (u.markScene g).1) (hstore : ∀ u h, P u → P (u.markStore h)) (hs : P s) :
    P (s.frameMark o) :=
  frameMark_stages s o hcomp hint htimer hsrc hscene hstore hsrc hcomp hint hs

end Sys2Proof.Machine
end

section
/-! What a command comes to, said once for every block: the cases of a received cell, of a command taken and of its work;
the moves of the Scene Controller and of the Store Manager, one for each operation of the model, and that every command is a
run of them. -/

namespace Sys2Proof.Machine

/-! ### A received cell and a command taken -/

theorem InnerKept.of_eq {s t : State} (htimer : t.timer = s.timer) (hscene : t.scene = s.scene) (hsrc : t.src = s.src)
    (hstore : t.store = s.store) (hcomp : t.comp = s.comp) (hcues : t.cues = s.cues) (hfree : t.freeIdx = s.freeIdx) :
    InnerKept s t := ⟨htimer, .of_eq hscene hsrc hstore hcomp hcues hfree⟩

theorem InnerKept.refl (s : State) : InnerKept s s := .of_eq rfl rfl rfl rfl rfl rfl rfl

theorem InnerKept.mapRing (s : State) (f : Ring → Ring) : InnerKept s (s.mapRing f) := .of_eq rfl rfl rfl rfl rfl rfl rfl

/-- R144, R145: a received cell changes the outer blocks alone, or is then handed to the block of its kind. -/
theorem receive_cases (s : State) (c : Cell) (placeFirst : Bool) :
    InnerKept s (s.receive c placeFirst) ∨
    ∃ f : Ring → Ring, s.receive c placeFirst = (s.mapRing f).stripArrival (stripOf c) ∧ cellKind c = .strip ∨
      s.receive c placeFirst = (s.mapRing f).syncArrival (syncNumber c) (syncFlags c) ∨
      s.receive c placeFirst = (s.mapRing f).takeCommand (controlOf c) := by
  unfold State.receive
  split
  case h_1 => exact .inl (.refl s)
  case h_2 =>
    obtain ⟨htimer, hscene, hsrc, hstore, hcomp, hcues, hfree, -⟩ := receiveAligning_keeps (cellGood c) placeFirst s
    exact .inl (.of_eq htimer hscene hsrc hstore hcomp hcues hfree)
  case h_3 =>
    split
    case isFalse =>
      obtain ⟨htimer, hscene, hsrc, hstore, hcomp, hcues, hfree, -⟩ := receiveBad_keeps placeFirst s
      exact .inl (.of_eq htimer hscene hsrc hstore hcomp hcues hfree)
    case isTrue =>
      simp only [State.receiveGood]
      split
      case h_1 hk => exact .inr ⟨fun r => (((r.countCell true).countRun false).forward c), .inl ⟨rfl, hk⟩⟩
      case h_2 => exact .inr ⟨fun r => (((r.countCell true).countRun false).forward c), .inr (.inl rfl)⟩
      case h_3 =>
        simp only [State.receiveControl]
        split
        · exact .inr ⟨fun r => ((((r.countCell true).countRun false).countControl).forward _), .inr (.inr rfl)⟩
        · split
          · exact .inr ⟨fun r => ((((r.countCell true).countRun false).countControl).openPlaceFor idleCell placeFirst),
              .inr (.inr rfl)⟩
          · exact .inl (.of_eq rfl rfl rfl rfl rfl rfl rfl)
      case h_4 => exact .inl (.of_eq rfl rfl rfl rfl rfl rfl rfl)
      all_goals exact .inl (.of_eq rfl rfl rfl rfl rfl rfl rfl)

/-- R151: in bypass the outer blocks alone change. -/
theorem InnerKept.bypass (s : State) (c : Cell) : InnerKept s (s.bypass c) := by
  obtain ⟨-, htimer, hscene, hsrc, hstore, hcomp, hcues, hfree, -⟩ := bypass_keeps c s
  exact .of_eq htimer hscene hsrc hstore hcomp hcues hfree

/-- CELL_RECEIVED, in every phase and link state. -/
theorem exec_cellReceived_cases {s t : State} {c : Cell} {placeFirst : Bool}
    (h : exec (.cellReceived c placeFirst) s = .next t) :
    InnerKept s t ∨
    ∃ f : Ring → Ring, t = (s.mapRing f).stripArrival (stripOf c) ∧ cellKind c = .strip ∨
      t = (s.mapRing f).syncArrival (syncNumber c) (syncFlags c) ∨
      t = (s.mapRing f).takeCommand (controlOf c) := by
  simp only [exec, execCellReceived] at h
  split at h
  case isFalse => cases h
  case isTrue =>
    cases h
    split
    · exact receive_cases s c placeFirst
    · exact .inl (.bypass s c)

/-- BYPASS_CELL, in every phase. -/
theorem exec_bypassCell_kept {s t : State} {c : Cell} (h : exec (.bypassCell c) s = .next t) : InnerKept s t := by
  simp only [exec, execBypassCell] at h
  split at h
  case isFalse => cases h
  case isTrue =>
    cases h
    split
    · exact .refl s
    · exact .bypass s c

/-- A command that acts while the tile runs does its work or leaves the state. -/
theorem whenRunning_of {P : State → Prop} {s : State} {f : State → State} (hs : P s) (hf : P (f s)) :
    P (s.whenRunning f) := by
  unfold State.whenRunning
  split
  · exact hf
  · exact hs

/-- The commands of the receiver, the thresholds and the ends of reset leave the picture path; the others are left to their
own rules. -/
theorem exec_cases {c : Instr} {s t : State} (h : exec c s = .next t) :
    (PictureKept s t ∧ SetupKept s t) ∨ (∃ cell placeFirst, c = .cellReceived cell placeFirst) ∨
    (∃ o, c = .frameMark o) ∨ c = .lineStart ∨ c = .powerOnReset ∨ c = .cueExpiry ∨ (∃ k, c = .tourStep k) ∨
    (∃ n, c = .stallLimit n) ∨ ∃ n, c = .lossLimit n := by
  have hkept : ∀ f : State → State, PictureKept s (f s) ∧ SetupKept s (f s) →
      PictureKept s (s.whenRunning f) ∧ SetupKept s (s.whenRunning f) := fun f hf =>
    whenRunning_of (P := fun u => PictureKept s u ∧ SetupKept s u) ⟨.refl s, .of_eq rfl⟩ hf
  cases c
  case cellReceived => simp
  case frameMark => simp
  case lineStart => simp
  case powerOnReset => simp
  case cueExpiry => simp
  case tourStep => simp
  case stallLimit => simp
  case lossLimit => simp
  all_goals refine .inl ?_
  case bypassCell =>
    have h := exec_bypassCell_kept h
    exact ⟨h.2, .of_eq h.1⟩
  all_goals cases h
  case powerOnResetEnd =>
    exact ⟨.of_eq (by simp) (by simp) (by simp) (by simp) (by simp) (by simp), powerOnResetEnd_setupKept s⟩
  case signalPresent => exact ⟨.of_eq (by simp) (by simp) (by simp) (by simp) (by simp) (by simp), .of_eq (by simp)⟩
  case signalLost => exact ⟨.of_eq (by simp) (by simp) (by simp) (by simp) (by simp) (by simp), .of_eq (by simp)⟩
  case tileResetEnd =>
    exact ⟨.of_eq (by simp) (by simp) (by simp) (by simp) (by simp) (by simp), tileResetEnd_setupKept s⟩
  case idlePlace => exact ⟨(InnerKept.mapRing s _).2, .of_eq rfl⟩
  all_goals refine hkept _ ?_
  case lockAcquired =>
    split
    · exact (lockAcquired_rule s).kept
    · exact (LockRule.refl s).kept
  case lockBadLimit =>
    split
    · exact (lockBadLimit_rule s).kept
    · exact (LockRule.refl s).kept
  case idleGenerate =>
    split
    · exact ⟨(InnerKept.mapRing s _).2, .of_eq rfl⟩
    · exact (LockRule.refl s).kept
  case acquireMissedLimit => exact (acquireMissedLimit_rule s).kept
  case holdoverLimit => exact (holdoverLimit_rule s).kept
  case startTimeout => exact (startTimeout_rule s).kept
  all_goals exact ⟨.of_eq (by simp) (by simp) (by simp) (by simp) (by simp) (by simp), .of_eq (by simp)⟩

/-- R154, R163: a command taken starts the tile reset, or is judged and replied to. -/
theorem takeCommand_cases (s : State) (c : Control) :
    (s.startsReset c = true ∧ s.takeCommand c = s.startTileReset c.originator c.sequence) ∨
    (s.startsReset c = false ∧ s.takeCommand c =
      offerReply (replyBody (s.judge c).1.cmd.address c.originator c.sequence c.command (s.judge c).2) (s.judge c).1) := by
  unfold State.takeCommand
  cases h : s.startsReset c
  · exact .inr ⟨rfl, rfl⟩
  · exact .inl ⟨rfl, rfl⟩

/-- R154: a command judged is refused with nothing changed, or its work is done. -/
theorem judge_cases (s : State) (c : Control) :
    (∃ r, s.judge c = (s, Answer.plain r) ∧ r ≠ .ok) ∨
    ∃ k, Command.ofCode c.command.toNat = some k ∧ k.unknownTable (TableId.ofCode c.table) = false ∧
      k.forbidden (s.classOf c.originator) (TableId.ofCode c.table) = false ∧
      s.judge c = s.work k (s.classOf c.originator) ((TableId.ofCode c.table).getD .setup) c := by
  unfold State.judge
  split
  case h_1 => exact .inl ⟨_, rfl, by decide⟩
  case h_2 k hk =>
    simp only
    split
    case isTrue => exact .inl ⟨_, rfl, by decide⟩
    case isFalse hu =>
      split
      case isTrue => exact .inl ⟨_, rfl, by decide⟩
      case isFalse hf => exact .inr ⟨k, hk, by simpa using hu, by simpa using hf, rfl⟩

/-- R158: a property that each record written keeps is kept by a WRITE. -/
theorem writeRecords_induct {P : State → Prop} {cls : OrigClass} {t : TableId}
    (step : ∀ s s' i bytes, P s → s.writeRecord cls t i bytes = .written s' → P s') (k i : Nat) (bytes : List Byte)
    (done : Nat) (s : State) (h : P s) : P (State.writeRecords cls t k i bytes done s).1 := by
  induction k generalizing i bytes done s with
  | zero => exact h
  | succ k ih =>
    simp only [State.writeRecords]
    split
    next s' hw => exact ih _ _ _ _ (step s s' i _ h hw)
    next => exact h

/-! ### The moves of the Scene Controller -/

/-- What one operation of the model can do to the scene. -/
inductive SceneMove : Scene → Scene → Prop
  | write (s : Scene) (n : Fin 32) (r : WinRec) (h : r.ok = true) : SceneMove s (s.writeShadow n r)
  | nudge (s : Scene) (n : Fin 32) (dx dy : Int) : SceneMove s (s.nudge n dx dy)
  | stack (s : Scene) (op : StackOp) (n : Fin 32) : SceneMove s { s with shadowList := op.apply s.shadow n s.shadowList }
  | save (s : Scene) (p : Fin 4) : SceneMove s (s.savePreset p)
  | load (s : Scene) (p : Fin 4) : SceneMove s (s.loadPreset p)
  | setSource (s : Scene) (n src : Fin 32) : SceneMove s (s.setSource n src)
  | raise (s : Scene) (n : Fin 32) : SceneMove s (s.raise n)
  | commit (s : Scene) (n : BitVec 32) : SceneMove s (s.commit n)
  | tileReset (s : Scene) : SceneMove s s.tileReset
  | powerOn (s : Scene) : SceneMove s Scene.powerOn
  /-- The flags and the active window states, which no list or record depends on. -/
  | states (s t : Scene)
      (h : t = { s with commitPending := t.commitPending, recallNote := t.recallNote, wins := t.wins }) : SceneMove s t

/-- A run of moves of the scene. -/
abbrev SceneRun : Scene → Scene → Prop := Relation.ReflTransGen SceneMove

theorem SceneRun.of_eq {s t : Scene} (h : t = s) : SceneRun s t := h ▸ .refl

theorem SceneRun.states {s t : Scene}
    (h : t = { s with commitPending := t.commitPending, recallNote := t.recallNote, wins := t.wins }) : SceneRun s t :=
  .single (.states s t h)

/-- A property that every move keeps is kept by a run. -/
theorem SceneRun.keeps {P : Scene → Prop} (hmove : ∀ s t, SceneMove s t → P s → P t) {s t : Scene} (h : SceneRun s t)
    (hs : P s) : P t := by
  induction h with
  | refl => exact hs
  | tail _ hm ih => exact hmove _ _ hm ih

theorem recall_run (s : Scene) (p : Fin 4) : SceneRun s (s.recall p) := by
  unfold Scene.recall
  split
  · exact .tail (.single (.load s p)) (.states _ _ rfl)
  · exact .refl

theorem requestBlank_run (s : Scene) (n : Fin 32) (q : AlarmRequest) : SceneRun s (s.requestBlank n q) := by
  unfold Scene.requestBlank
  split
  · exact .states rfl
  · exact .refl

theorem requestHighlight_run (s : Scene) (n : Fin 32) (q : AlarmRequest) : SceneRun s (s.requestHighlight n q) := by
  unfold Scene.requestHighlight
  split
  · exact .states rfl
  · exact .refl

theorem act_run (k : SceneWork) (a : Action) (window param : Byte) : SceneRun k.scene (k.act a window param).scene := by
  match a with
  | .commit => exact .states rfl
  | .recall => exact recall_run _ _
  | .source => exact .single (.setSource _ _ _)
  | .raise => exact .single (.raise _ _)
  | .blank => exact requestBlank_run _ _ _
  | .highlight => exact requestHighlight_run _ _ _

theorem actLevel_run (k : SceneWork) (c : Bool) (a : Action) (window param : Byte) :
    SceneRun k.scene (k.actLevel c a window param).scene := by
  match a with
  | .blank => exact requestBlank_run _ _ _
  | .highlight => exact requestHighlight_run _ _ _
  | .commit => exact .refl
  | .recall => exact .refl
  | .source =>
    cases c
    · exact .refl
    · exact act_run k .source window param
  | .raise =>
    cases c
    · exact .refl
    · exact act_run k .raise window param

/-- R137: a trigger unit does nothing, acts, or makes its LEVEL request. -/
theorem unitActs_cases (k : SceneWork) (t : Trigger) (strobe : Bool) (prev cur : BitVec 32) :
    k.unitActs t strobe prev cur = k ∨ k.unitActs t strobe prev cur = k.act t.action t.window t.param ∨
    ∃ c, k.unitActs t strobe prev cur = k.actLevel c t.action t.window t.param := by
  unfold SceneWork.unitActs
  split
  · exact .inr (.inl rfl)
  · split
    next p c _ _ =>
      split
      · exact .inr (.inr ⟨c, rfl⟩)
      · split
        · exact .inr (.inl rfl)
        · exact .inl rfl
    next => exact .inl rfl

theorem unitActs_run (k : SceneWork) (t : Trigger) (strobe : Bool) (prev cur : BitVec 32) :
    SceneRun k.scene (k.unitActs t strobe prev cur).scene := by
  rcases unitActs_cases k t strobe prev cur with h | h | ⟨c, h⟩ <;> rw [h]
  · exact act_run _ _ _ _
  · exact actLevel_run _ _ _ _ _

theorem unitsAct_run (k : SceneWork) (u : CueUnit) (prev cur : BitVec 32) :
    SceneRun k.scene (k.unitsAct u prev cur).scene := by
  unfold SceneWork.unitsAct
  induction indices 8 generalizing k with
  | nil => exact .refl
  | cons i l ih => exact (unitActs_run _ _ _ _ _).trans (ih _)

theorem expireOne_run (k : CueWork) (n : BitVec 32) : SceneRun k.work.scene (k.expireOne n).work.scene := by
  unfold CueWork.expireOne
  split
  · exact .refl
  · exact act_run _ _ _ _

theorem expire_run (n : BitVec 32) (fuel : Nat) (k : CueWork) :
    SceneRun k.work.scene (CueWork.expire n fuel k).work.scene := by
  induction fuel generalizing k with
  | zero => exact .refl
  | succ fuel ih => exact (expireOne_run k n).trans (ih _)

theorem tourSteps_states (s : Scene) (n : BitVec 32) : s.tourSteps n = { s with wins := (s.tourSteps n).wins } := by
  unfold Scene.tourSteps
  induction indices 32 generalizing s with
  | nil => rfl
  | cons k l ih =>
    rw [List.foldl_cons, ih]
    rfl

theorem markCues_scene_run (s : State) : SceneRun s.scene s.markCues.1.scene := by
  have h := expire_run s.timer.wallN s.cues.queue.length ⟨⟨s.scene, []⟩, s.cues.queue⟩
  simp only [State.markCues]
  split
  · rw [(latch_keeps _ _).2.1]
    exact h
  · exact h

theorem markTriggers_scene_run (s : State) (l : List (Fin 32)) : SceneRun s.scene (s.markTriggers l).1.scene :=
  (SceneRun.states rfl).trans (unitsAct_run ⟨s.scene.takeClears, l⟩ s.cues s.timer.prevFlags s.timer.curFlags)

theorem markCommit_scene_run (s : State) : SceneRun s.scene s.markCommit.1.scene := by
  unfold State.markCommit
  split
  · rw [(latch_keeps _ _).2.1]
    exact .single (.commit _ _)
  · exact .refl

theorem markScene_scene_run (s : State) (g : Bool) : SceneRun s.scene (s.markScene g).1.scene := by
  refine (markCues_scene_run s).trans ((markTriggers_scene_run _ s.markCues.2).trans ((markCommit_scene_run _).trans (SceneRun.states ?_)))
  simp only [State.markScene]
  rw [tourSteps_states]

theorem frameMark_scene_run (s : State) (o : MarkOrder) : SceneRun s.scene (s.frameMark o).scene := by
  simp only [State.frameMark]
  have key : ∀ u : State, u.scene = s.scene → ∀ g, SceneRun s.scene (u.markScene g).1.scene := fun u hu g =>
    hu ▸ markScene_scene_run u g
  split <;> split <;> split <;> simp <;> exact key _ (by simp) _

/-! ### The work of a command -/

/-- R159: a WRITE_IF changes nothing, or does what the write of one record does. -/
theorem writeIf_cases (s : State) (cls : OrigClass) (t : TableId) (c : Control) :
    (s.writeIf cls t c).1 = s ∨
    ∃ (t' : TableId) (i : Nat) (bytes : List Byte), s.writeRecord cls t' i bytes = .written (s.writeIf cls t c).1 := by
  unfold State.writeIf
  split
  case h_1 n _ =>
    simp only [State.writeWindowIf]
    split
    · exact .inl rfl
    · split
      · exact .inl rfl
      · split
        next s' h => exact .inr ⟨.windows, n.val, _, by simpa [State.writeRecord, indexOf] using h⟩
        next => exact .inl rfl
  case h_2 n _ =>
    simp only [State.writeSourceIf]
    split
    · exact .inl rfl
    · split
      next s' h => exact .inr ⟨.sources, n.val, _, by simpa [State.writeRecord, indexOf] using h⟩
      next => exact .inl rfl
  case h_3 => exact .inl rfl

/-- R128: a cue offered enters the queue, or nothing changes. -/
theorem offerCue_cases (s : State) (c : Cue) :
    (s.offerCue c).1 = s ∨ (s.offerResult c = .ok ∧ (s.offerCue c).1 = s.addCue c) := by
  unfold State.offerCue
  split
  case h_1 h => exact .inr ⟨h, rfl⟩
  all_goals exact .inl rfl

/-- R128: a CUE_ADD changes nothing, or offers a legal cue. -/
theorem cueAdd_cases (s : State) (cls : OrigClass) (c : Control) :
    (s.cueAdd cls c).1 = s ∨
    ∃ cue, Cue.unpack (c.payload.take 12) = some cue ∧ cue.ok = true ∧ (s.cueAdd cls c).1 = (s.offerCue cue).1 := by
  unfold State.cueAdd
  split
  case h_1 => exact .inl rfl
  case h_2 cue hcue =>
    split
    · exact .inl rfl
    next hok =>
      split
      · exact .inl rfl
      · exact .inr ⟨cue, hcue, by simpa using hok, rfl⟩

/-- What one piece of a command's work can do to the tile. -/
inductive WorkMove : State → State → Prop
  /-- READ, EVENT_ACK and ENUMERATE: the count of free values, the attention set and the address. -/
  | outer (s t : State)
      (h : t = { s with cmd := { s.cmd with address := t.cmd.address, attention := t.cmd.attention }, freeIdx := t.freeIdx })
      (haddress : s.cmd.address ≤ 100 → t.cmd.address ≤ 100) : WorkMove s t
  /-- R158: one record of a table is written. -/
  | written (s t : State) (cls : OrigClass) (table : TableId) (i : Nat) (bytes : List Byte)
      (h : s.writeRecord cls table i bytes = .written t) : WorkMove s t
  | zeroed (s : State) (arg : Nat) : WorkMove s (s.zeroCounters arg).1
  | scene (s t : State) (h : t = { s with scene := t.scene }) (hmove : SceneMove s.scene t.scene) : WorkMove s t
  | cueAdded (s : State) (cue : Cue) (hok : cue.ok = true) (hperiod : cue.period ≤ 65535)
      (hoffer : s.offerResult cue = .ok) : WorkMove s (s.addCue cue)
  /-- CUE_CANCEL and CUE_CLEAR take cues out of the queue. -/
  | cuesRemoved (s t : State) (h : t = { s with cues := { s.cues with queue := t.cues.queue } })
      (hsub : t.cues.queue.Sublist s.cues.queue) : WorkMove s t
  | strobed (s t : State) (h : t = { s with cues := { s.cues with strobes := t.cues.strobes } }) : WorkMove s t

/-- A run of the pieces of a command's work. -/
abbrev WorkRun : State → State → Prop := Relation.ReflTransGen WorkMove

theorem WorkRun.of_eq {s t : State} (h : t = s) : WorkRun s t := h ▸ .refl

/-- A property that every piece of work keeps is kept by a run. -/
theorem WorkRun.keeps {P : State → Prop} (hmove : ∀ s t, WorkMove s t → P s → P t) {s t : State} (h : WorkRun s t)
    (hs : P s) : P t := by
  induction h with
  | refl => exact hs
  | tail _ hm ih => exact hmove _ _ hm ih

/-- A field of two bytes holds 16 bits. -/
theorem field_two_lt (l : List Byte) (i : Nat) : field l i 2 < 65536 := by
  unfold field bytesNat
  match (l.drop i).take 2, List.length_take_le 2 (l.drop i) with
  | [], _ => decide
  | [a], _ => have := a.isLt; simp only [List.foldl]; omega
  | [a, b], _ => have := a.isLt; have := b.isLt; simp only [List.foldl]; omega
  | _ :: _ :: _ :: _, h => simp at h

theorem Cue.unpack_period_le {l : List Byte} {cue : Cue} (h : Cue.unpack l = some cue) : cue.period ≤ 65535 := by
  simp only [Cue.unpack, bind, Option.bind_eq_some_iff] at h
  obtain ⟨action, -, mode, -, h⟩ := h
  cases h
  exact Nat.le_of_lt_succ (field_two_lt l 6)

theorem offerCue_run (s : State) (cue : Cue) (hok : cue.ok = true) (hperiod : cue.period ≤ 65535) :
    WorkRun s (s.offerCue cue).1 := by
  rcases offerCue_cases s cue with h | ⟨hoffer, h⟩
  · exact .of_eq h
  · rw [h]
    exact .single (.cueAdded s cue hok hperiod hoffer)

theorem commitCue_ok (target : BitVec 32) : (commitCue target).ok = true := rfl

/-- R154: the work of a command is a run of such pieces. -/
theorem work_run (s : State) (k : Command) (cls : OrigClass) (t : TableId) (c : Control) :
    WorkRun s (s.work k cls t c).1 := by
  cases k <;> simp only [State.work]
  case read =>
    unfold State.read
    split
    · exact .refl
    · exact .single (.outer _ _ rfl id)
  case write =>
    unfold State.write
    split
    · exact .refl
    · split
      · exact .refl
      · split
        · exact .single (.zeroed _ _)
        · exact writeRecords_induct (P := WorkRun s)
            (fun u u' i bytes hu hw => hu.tail (.written u u' cls t i bytes hw)) _ _ _ _ _ .refl
  case writeIf =>
    rcases writeIf_cases s cls t c with h | ⟨t', i, bytes, h⟩
    · exact .of_eq h
    · exact .single (.written _ _ cls t' i bytes h)
  case commit =>
    unfold State.commitCommand
    split
    · exact .single (.scene _ _ rfl (.states _ _ rfl))
    · exact offerCue_run s _ (commitCue_ok _) (Nat.zero_le _)
    · exact .refl
  case stack =>
    unfold State.stackCommand
    repeat' split
    all_goals first | exact .refl | exact .single (.scene _ _ rfl (.stack _ _ _))
  case nudge =>
    unfold State.nudgeCommand
    repeat' split
    all_goals first | exact .refl | exact .single (.scene _ _ rfl (.nudge _ _ _ _))
  case presetSave =>
    unfold State.presetSave
    split
    · exact .refl
    · exact .single (.scene _ _ rfl (.save _ _))
  case presetLoad =>
    unfold State.presetLoad
    repeat' split
    all_goals first | exact .refl | exact .single (.scene _ _ rfl (.load _ _))
  case cueAdd =>
    rcases cueAdd_cases s cls c with h | ⟨cue, hcue, hok, h⟩
    · exact .of_eq h
    · rw [h]
      exact offerCue_run s cue hok (Cue.unpack_period_le hcue)
  case cueCancel =>
    unfold State.cueCancel
    split
    · exact .refl
    · exact .single (.cuesRemoved _ _ rfl List.filter_sublist)
  case cueClear => exact .single (.cuesRemoved _ _ rfl (List.nil_sublist _))
  case strobe =>
    unfold State.strobe
    split
    · exact .refl
    · exact .single (.strobed _ _ rfl)
  case highlightClear =>
    unfold State.highlightClear
    split
    · exact .refl
    · exact .single (.scene _ _ rfl (.states _ _ rfl))
  case blankClear =>
    unfold State.blankClear
    split
    · exact .refl
    · exact .single (.scene _ _ rfl (.states _ _ rfl))
  case eventAck => exact .single (.outer _ _ rfl id)
  case enumerate =>
    unfold State.enumerate
    split
    next h =>
      have hhop : c.arg1 ≤ 100 := by simp_all [enumerateTaken]
      exact .single (.outer _ _ rfl fun _ => hhop)
    next => exact .refl
  case tileReset => exact .refl

theorem judge_run (s : State) (c : Control) : WorkRun s (s.judge c).1 := by
  rcases judge_cases s c with ⟨r, h, -⟩ | ⟨k, -, -, -, h⟩
  · exact .of_eq (by rw [h])
  · rw [h]
    exact work_run _ _ _ _ _

/-- R158: what writing one record of a table comes to. -/
theorem writeRecord_cases {s s' : State} {cls : OrigClass} {t : TableId} {i : Nat} {bytes : List Byte}
    (h : s.writeRecord cls t i bytes = .written s') :
    (t = .windows ∧ ∃ n r, r.ok = true ∧ WinRec.unpack bytes = some r ∧ s.recordDenied cls n bytes = false ∧
      s' = { s with scene := s.scene.writeShadow n r }) ∨
    (t = .sources ∧ ∃ n r, r.ok = true ∧ s' = s.writeSource n r) ∨
    (t = .setup ∧ ∃ r : Setup, r.ok s.cues.queue.length = true ∧
      s' = { s with timer := { s.timer with pendSetup := some r } }) ∨
    (t = .origins ∧ ∃ i class', s' = { s with cmd := { s.cmd with origins := s.cmd.origins.set i class' } }) ∨
    (t = .triggers ∧ ∃ i r, s' = { s with cues := { s.cues with triggers := s.cues.triggers.set i r } }) ∨
    (t = .glyphs ∧ ∃ i g, s' = { s with comp := { s.comp with glyphs := s.comp.glyphs.set i g } }) := by
  cases t <;> simp only [State.writeRecord] at h
  case windows =>
    unfold State.writeWindow at h
    split at h
    · cases h
    next hd =>
      split at h
      · cases h
      next r hr =>
        split at h <;> cases h
        exact .inl ⟨rfl, _, r, ‹_›, hr, by simpa using hd, rfl⟩
  case sources =>
    unfold State.writeSourceRecord at h
    split at h
    · cases h
    · split at h <;> cases h
      exact .inr (.inl ⟨rfl, _, _, ‹_›, rfl⟩)
  case setup =>
    simp only [State.writeSetup] at h
    split at h <;> cases h
    exact .inr (.inr (.inl ⟨rfl, _, ‹_›, rfl⟩))
  case origins =>
    unfold State.writeOrigin at h
    split at h
    · cases h
    · split at h <;> cases h
      exact .inr (.inr (.inr (.inl ⟨rfl, _, _, rfl⟩)))
  case triggers =>
    unfold State.writeTrigger at h
    split at h
    · cases h
    · split at h <;> cases h
      exact .inr (.inr (.inr (.inr (.inl ⟨rfl, _, _, rfl⟩))))
  case glyphs =>
    cases h
    exact .inr (.inr (.inr (.inr (.inr ⟨rfl, _, _, rfl⟩))))
  all_goals cases h

theorem workMove_scene_run {s t : State} (h : WorkMove s t) : SceneRun s.scene t.scene := by
  cases h with
  | outer t h => rw [h]
  | written t cls table i bytes h =>
    rcases writeRecord_cases h with ⟨-, n, r, hok, -, -, rfl⟩ | ⟨-, n, r, -, rfl⟩ | ⟨-, r, -, rfl⟩ | ⟨-, j, g, rfl⟩ |
      ⟨-, j, r, rfl⟩ | ⟨-, j, g, rfl⟩
    · exact .single (.write _ _ _ hok)
    all_goals exact .refl
  | zeroed => exact .refl
  | scene t h hmove => exact .single hmove
  | cueAdded => exact .refl
  | cuesRemoved t h => rw [h]
  | strobed t h => rw [h]

theorem judge_scene_run (s : State) (c : Control) : SceneRun s.scene (s.judge c).1.scene :=
  (judge_run s c).keeps (P := fun u => SceneRun s.scene u.scene) (fun _ _ hm h => h.trans (workMove_scene_run hm)) .refl

theorem takeCommand_scene_run (s : State) (c : Control) : SceneRun s.scene (s.takeCommand c).scene := by
  rcases takeCommand_cases s c with ⟨-, h⟩ | ⟨-, h⟩ <;> rw [h]
  · exact .single (.tileReset _)
  · rw [(offerReply_keeps _ _).2.1]
    exact judge_scene_run s c

theorem expireCue_scene_run (s : State) : SceneRun s.scene s.expireCue.scene := by
  simp only [State.expireCue]
  split
  · exact .refl
  · rw [(handSwitches_keeps _ _).2.2.2.1]
    have h := expireOne_run ⟨⟨s.scene, []⟩, s.cues.queue⟩ s.timer.wallN
    split
    · rw [(latch_keeps _ _).2.1]
      exact h
    · exact h

theorem stepTour_scene_run (s : State) (k : Fin 32) : SceneRun s.scene (s.stepTour k).scene := by
  simp only [State.stepTour]
  split
  · rw [(handSwitches_keeps _ _).2.2.2.1]
    exact .states rfl
  · exact .refl

theorem lineMark_scene_run (s : State) : SceneRun s.scene s.lineMark.scene := by
  obtain ⟨-, -, hscene, -⟩ := lineStart_keeps
    (State.frameMark { s with freeIdx := s.freeIdx + 1 } (Config.lineMarkOrder s.freeIdx))
  unfold State.lineMark
  rw [hscene]
  exact frameMark_scene_run { s with freeIdx := s.freeIdx + 1 } _

theorem panelLine_scene (s : State) : s.panelLine.scene = s.scene := by
  unfold State.panelLine
  split <;> simp

theorem lineStart_scene_run {s t : State} (h : exec .lineStart s = .next t) : SceneRun s.scene t.scene := by
  rcases exec_lineStart_cases s with ⟨-, he⟩ | ⟨-, he⟩ <;> rw [he] at h <;> cases h
  · exact lineMark_scene_run s
  · exact .of_eq (panelLine_scene s)

/-- Every command is a run of the scene's moves. -/
theorem exec_scene_run {c : Instr} {s t : State} (h : exec c s = .next t) : SceneRun s.scene t.scene := by
  rcases exec_cases h with ⟨⟨hscene, -⟩, -⟩ | ⟨cell, placeFirst, rfl⟩ | ⟨o, rfl⟩ | rfl | rfl | rfl | ⟨k, rfl⟩ | ⟨n, rfl⟩ |
    ⟨n, rfl⟩
  · exact .of_eq hscene
  · rcases exec_cellReceived_cases h with ⟨-, hscene, -⟩ | ⟨f, ⟨rfl, -⟩ | rfl | rfl⟩
    · exact .of_eq hscene
    · exact .of_eq (by simp)
    · exact .of_eq (by simp)
    · exact takeCommand_scene_run (s.mapRing f) _
  · rcases exec_frameMark_cases o s with ⟨-, he⟩ | ⟨-, he⟩ <;> rw [he] at h
    · cases h
      exact frameMark_scene_run s o
    · exact lineStart_scene_run h
  · exact lineStart_scene_run h
  · cases h
    exact .single (.powerOn _)
  · cases h
    exact whenRunning_of (P := fun u => SceneRun s.scene u.scene) .refl (expireCue_scene_run s)
  · cases h
    exact whenRunning_of (P := fun u => SceneRun s.scene u.scene) .refl (stepTour_scene_run s k)
  · cases h
    exact whenRunning_of (P := fun u => SceneRun s.scene u.scene) .refl (.of_eq (by simp))
  · cases h
    exact whenRunning_of (P := fun u => SceneRun s.scene u.scene) .refl (.of_eq (by simp))

end Sys2Proof.Machine
end

section
/-! The stacking lists (01_windows_and_scenes.md, R6 to R8, R14, R16, R17): what each operation makes of a list that is the
list of its table, and that every step keeps both lists and every preset sound. -/

namespace Sys2Proof.Machine

/-! ### Tiers -/

theorem mem_tierOf {t : Table WinRec 32} {p : Bool} {l : List (Fin 32)} {n : Fin 32} :
    n ∈ tierOf t p l ↔ n ∈ l ∧ (t.get n).pinned = p := by simp [tierOf]

theorem mem_without {n m : Fin 32} {l : List (Fin 32)} : m ∈ without n l ↔ m ∈ l ∧ m ≠ n := by simp [without]

theorem tierOf_append_perm (t : Table WinRec 32) (l : List (Fin 32)) :
    List.Perm (tierOf t true l ++ tierOf t false l) l := by
  have h : tierOf t false l = l.filter fun n => !decide ((t.get n).pinned = true) :=
    List.filter_congr fun n _ => by cases (t.get n).pinned <;> rfl
  rw [h]
  exact List.filter_append_perm _ l

/-- A list of the pinned windows before the unpinned ones, each once, is a list of its table. -/
theorem ListOf.of_tiers {t : Table WinRec 32} {a b l : List (Fin 32)} (ha : ∀ n ∈ a, (t.get n).pinned = true)
    (hb : ∀ n ∈ b, (t.get n).pinned = false) (hperm : List.Perm (a ++ b) l) (hnodup : l.Nodup)
    (hmem : ∀ n, n ∈ l ↔ (t.get n).enabled = true) : ListOf t (a ++ b) := by
  refine ⟨hperm.nodup_iff.mpr hnodup, fun n => (hperm.mem_iff).trans (hmem n), ?_⟩
  rw [List.pairwise_append]
  refine ⟨List.pairwise_of_forall_mem_list fun x hx _ _ _ => ha x hx, ?_, fun x hx _ _ _ => ha x hx⟩
  exact List.pairwise_of_forall_mem_list fun x hx y hy h => by simp [hb y hy] at h

/-- What makes a list the list of a table is read from the enabled and pinned fields alone. -/
theorem ListOf.congr {t u : Table WinRec 32} {l : List (Fin 32)}
    (h : ∀ n, (u.get n).enabled = (t.get n).enabled ∧ (u.get n).pinned = (t.get n).pinned) (hl : ListOf t l) :
    ListOf u l := by
  obtain ⟨hnodup, hmem, hpair⟩ := hl
  exact ⟨hnodup, fun n => by rw [hmem n, (h n).1], hpair.imp fun hab => by rwa [(h _).2, (h _).2]⟩

/-- In the list of a table the pinned tier stands in front. -/
theorem ListOf.eq_tiers {t : Table WinRec 32} {l : List (Fin 32)}
    (h : l.Pairwise fun a b => (t.get b).pinned = true → (t.get a).pinned = true) :
    tierOf t true l ++ tierOf t false l = l := by
  induction l with
  | nil => rfl
  | cons a l ih =>
    rw [List.pairwise_cons] at h
    cases ha : (t.get a).pinned with
    | true =>
      have hcons : ∀ p, tierOf t p (a :: l) = if p = true then a :: tierOf t p l else tierOf t p l := by
        intro p
        cases p <;> simp [tierOf, ha]
      rw [hcons, hcons]
      simpa using ih h.2
    | false =>
      have hnone : tierOf t true (a :: l) = [] := by
        simp only [tierOf, List.filter_eq_nil_iff, decide_eq_true_eq, List.mem_cons, forall_eq_or_imp]
        exact ⟨by simp [ha], fun b hb hp => by simpa [ha] using h.1 b hb hp⟩
      have hall : tierOf t false (a :: l) = a :: l := by
        simp only [tierOf, List.filter_eq_self, decide_eq_true_eq, List.mem_cons, forall_eq_or_imp]
        refine ⟨ha, fun b hb => ?_⟩
        cases hp : (t.get b).pinned with
        | false => rfl
        | true => simpa [ha] using h.1 b hb hp
      rw [hnone, hall, List.nil_append]

/-! ### Entering and leaving a list (R7, R14) -/

theorem enterFront_perm (t : Table WinRec 32) (n : Fin 32) (l : List (Fin 32)) :
    List.Perm (enterFront t n l) (n :: without n l) := by
  unfold enterFront
  split
  · exact (tierOf_append_perm t _).cons n
  · exact List.perm_middle.trans ((tierOf_append_perm t _).cons n)

theorem listOf_enterFront {t : Table WinRec 32} {n : Fin 32} {l : List (Fin 32)} (hnodup : l.Nodup)
    (hn : (t.get n).enabled = true) (hmem : ∀ m, m ≠ n → (m ∈ l ↔ (t.get m).enabled = true)) :
    ListOf t (enterFront t n l) := by
  have hperm := enterFront_perm t n l
  have hnodup' : (n :: without n l).Nodup :=
    List.nodup_cons.mpr ⟨fun h => (mem_without.mp h).2 rfl, hnodup.filter _⟩
  have hmem' : ∀ m, m ∈ n :: without n l ↔ (t.get m).enabled = true := by
    intro m
    by_cases hm : m = n
    · simp [hm, hn]
    · simp [hm, mem_without, hmem m hm]
  unfold enterFront at hperm ⊢
  split at hperm <;> rename_i hp
  · rw [if_pos hp]
    refine ListOf.of_tiers (a := n :: _) ?_ (fun m hm => (mem_tierOf.mp hm).2) hperm hnodup' hmem'
    intro m hm
    rcases List.mem_cons.mp hm with rfl | hm
    · exact hp
    · exact (mem_tierOf.mp hm).2
  · rw [if_neg hp]
    refine ListOf.of_tiers (fun m hm => (mem_tierOf.mp hm).2) ?_ hperm hnodup' hmem'
    intro m hm
    rcases List.mem_cons.mp hm with rfl | hm
    · simpa using hp
    · exact (mem_tierOf.mp hm).2

theorem listOf_raised {t : Table WinRec 32} {n : Fin 32} {l : List (Fin 32)} (h : ListOf t l) :
    ListOf t (raised t n l) := by
  unfold raised
  split
  next hn => exact listOf_enterFront h.1 ((h.2.1 n).mp (by simpa using hn)) fun m _ => h.2.1 m
  next => exact h

/-- R7, Table 1-3: the shadow list stays the list of its table when one record is written. -/
theorem listOf_relist {t : Table WinRec 32} {n : Fin 32} {r : WinRec} {l : List (Fin 32)} (h : ListOf t l) :
    ListOf (t.set n r) (relist (t.set n r) n (t.get n) l) := by
  obtain ⟨hnodup, hmem, hpair⟩ := h
  have hother : ∀ m, m ≠ n → (t.set n r).get m = t.get m := fun m hm => Table.get_set_of_ne t r hm
  simp only [relist, Table.get_set_self]
  split
  next hoff =>
    refine ⟨hnodup.filter _, fun m => ?_, ?_⟩
    · by_cases hm : m = n
      · simp [hm, mem_without, hoff]
      · simp [mem_without, hm, hmem, hother m hm]
    · refine (hpair.filter _).imp_of_mem fun {a b} ha hb hab => ?_
      rwa [hother a (mem_without.mp ha).2, hother b (mem_without.mp hb).2]
  next hon =>
    have hon' : r.enabled = true := by simpa using hon
    split
    next hsame =>
      refine ListOf.congr (t := t) (fun m => ?_) ⟨hnodup, hmem, hpair⟩
      by_cases hm : m = n
      · rw [hm, Table.get_set_self, hsame.1, hsame.2, hon']
        exact ⟨rfl, rfl⟩
      · rw [hother m hm]
        exact ⟨rfl, rfl⟩
    next => exact listOf_enterFront hnodup (by simpa using hon') fun m hm => by rw [hmem m, hother m hm]

/-! ### STACK (R8) -/

theorem swapForward_perm (n : Fin 32) (l : List (Fin 32)) : List.Perm (swapForward n l) l := by
  induction l with
  | nil => exact .refl _
  | cons a l ih =>
    cases l with
    | nil => exact .refl _
    | cons b rest =>
      simp only [swapForward]
      split
      · exact .swap a b rest
      · exact ih.cons a

theorem swapBack_perm (n : Fin 32) (l : List (Fin 32)) : List.Perm (swapBack n l) l := by
  induction l with
  | nil => exact .refl _
  | cons a l ih =>
    cases l with
    | nil => exact .refl _
    | cons b rest =>
      simp only [swapBack]
      split
      · exact .swap a b rest
      · exact ih.cons a

theorem cons_without_perm {n : Fin 32} {l : List (Fin 32)} (hn : n ∈ l) (hnodup : l.Nodup) :
    List.Perm (n :: without n l) l := by
  have hn' : n ∉ without n l := fun h => (mem_without.mp h).2 rfl
  refine (List.perm_ext_iff_of_nodup (List.nodup_cons.mpr ⟨hn', hnodup.filter _⟩) hnodup).mpr fun m => ?_
  by_cases hm : m = n
  · simp [hm, hn]
  · simp [hm, mem_without]

/-- R8: an operation moves one window inside its tier. -/
theorem StackOp.inTier_perm (op : StackOp) (n : Fin 32) {l : List (Fin 32)} (hnodup : l.Nodup) :
    List.Perm (op.inTier n l) l := by
  cases op with
  | raise => exact swapForward_perm n l
  | lower => exact swapBack_perm n l
  | front =>
    simp only [StackOp.inTier]
    split
    next hn => exact cons_without_perm (by simpa using hn) hnodup
    next => exact .refl _
  | back =>
    simp only [StackOp.inTier]
    split
    next hn => exact List.perm_append_comm.trans (cons_without_perm (by simpa using hn) hnodup)
    next => exact .refl _

theorem listOf_stack {t : Table WinRec 32} {l : List (Fin 32)} (op : StackOp) (n : Fin 32) (h : ListOf t l) :
    ListOf t (op.apply t n l) := by
  obtain ⟨hnodup, hmem, -⟩ := h
  have hin : ∀ p, List.Perm (op.inTier n (tierOf t p l)) (tierOf t p l) := fun p => op.inTier_perm n (hnodup.filter _)
  have htier : ∀ p, ∀ m ∈ op.inTier n (tierOf t p l), (t.get m).pinned = p := fun p m hm =>
    (mem_tierOf.mp ((hin p).mem_iff.mp hm)).2
  unfold StackOp.apply
  split
  · exact .of_tiers (htier true) (fun m hm => (mem_tierOf.mp hm).2)
      (((hin true).append (.refl _)).trans (tierOf_append_perm t l)) hnodup hmem
  · exact .of_tiers (fun m hm => (mem_tierOf.mp hm).2) (htier false)
      (((List.Perm.refl _).append (hin false)).trans (tierOf_append_perm t l)) hnodup hmem

/-! ### Presets (R16, R17) -/

theorem sound_savePreset {s : Scene} (h : ListOf s.shadow s.shadowList) (p q : Fin 4)
    (hq : (s.presets.get q).sound) : ((s.savePreset p).presets.get q).sound := by
  obtain ⟨hnodup, hmem, -⟩ := h
  simp only [Scene.savePreset, Table.get_set]
  split
  next =>
    refine ⟨hnodup.filter _, fun n => ?_, fun n r => ?_⟩ <;> cases hp : (s.shadow.get n).pinned
    · simp [mem_tierOf, hmem, hp]
    · simp [mem_tierOf, hp]
    · simp only [Table.get_map, hp]
      rintro ⟨⟩
      exact hp
    · simp [hp]
  next => exact hq

/-- R17: a load leaves every window pinned that was, and no other. -/
theorem loadedRecord_pinned {old : WinRec} {slot : Option WinRec} (h : ∀ r, slot = some r → r.pinned = false) :
    (loadedRecord old slot).pinned = old.pinned := by
  unfold loadedRecord
  split
  · rfl
  next hp =>
    cases slot with
    | none => simpa [WinRec.default] using hp
    | some r => simpa [h r rfl] using hp

theorem loadedRecord_enabled {old : WinRec} {slot : Option WinRec} :
    (loadedRecord old slot).enabled = true ↔
      if old.pinned = true then old.enabled = true else ∃ r, slot = some r ∧ r.enabled = true := by
  unfold loadedRecord
  split
  · rfl
  · cases slot <;> simp [WinRec.default]

theorem listOf_loadPreset {s : Scene} {p : Fin 4} (h : ListOf s.shadow s.shadowList) (hp : (s.presets.get p).sound) :
    ListOf (s.loadPreset p).shadow (s.loadPreset p).shadowList := by
  obtain ⟨hnodup, hmem, -⟩ := h
  obtain ⟨hlnodup, hlmem, hslots⟩ := hp
  have hpinned : ∀ n, ((s.loadPreset p).shadow.get n).pinned = (s.shadow.get n).pinned := fun n => by
    simp only [Scene.loadPreset, Table.get_ofFn]
    exact loadedRecord_pinned (hslots n)
  have henabled : ∀ n, ((s.loadPreset p).shadow.get n).enabled = true ↔ _ := fun n => by
    simp only [Scene.loadPreset, Table.get_ofFn]
    exact loadedRecord_enabled
  have ha : ∀ n ∈ tierOf s.shadow true s.shadowList, ((s.loadPreset p).shadow.get n).pinned = true := fun n hn => by
    rw [hpinned]
    exact (mem_tierOf.mp hn).2
  have hb : ∀ n ∈ (s.presets.get p).list.filter (fun n => !((s.loadPreset p).shadow.get n).pinned),
      ((s.loadPreset p).shadow.get n).pinned = false := fun n hn => by simpa using (List.mem_filter.mp hn).2
  refine ListOf.of_tiers ha hb (.refl _) ?_ fun n => ?_
  · rw [List.nodup_append]
    refine ⟨hnodup.filter _, hlnodup.filter _, fun n hn m hm he => ?_⟩
    have := ha n hn
    rw [he, hb m hm] at this
    cases this
  · have hkept : n ∈ (s.presets.get p).list.filter (fun n => !((s.loadPreset p).shadow.get n).pinned) ↔
        n ∈ (s.presets.get p).list ∧ (s.shadow.get n).pinned = false := by
      rw [List.mem_filter, hpinned]
      simp
    rw [henabled]
    refine (List.mem_append.trans (or_congr mem_tierOf hkept)).trans ?_
    split
    next hpin => simp [hpin, hmem]
    next hpin => simp [hpin, hlmem]

/-! ### Every step -/

/-- R6, R16, R17 of a scene. -/
def Scene.ListsLegal (sc : Scene) : Prop :=
  ListOf sc.shadow sc.shadowList ∧ ListOf sc.active sc.activeList ∧ ∀ p, (sc.presets.get p).sound

theorem listsLegal_iff (s : State) : ListsLegal s ↔ s.scene.ListsLegal := Iff.rfl

theorem listOf_default : ListOf (Table.fill 32 WinRec.default) [] :=
  ⟨List.nodup_nil, fun n => by simp [WinRec.default], List.Pairwise.nil⟩

theorem Preset.sound_empty : Preset.empty.sound :=
  ⟨List.nodup_nil, fun n => by simp [Preset.empty], fun n r h => by simp at h⟩

theorem Scene.listsLegal_powerOn : Scene.powerOn.ListsLegal :=
  ⟨listOf_default, listOf_default, fun p => by rw [Scene.powerOn_presets_get]; exact Preset.sound_empty⟩

theorem SceneMove.listsLegal {s t : Scene} (h : SceneMove s t) (hs : s.ListsLegal) : t.ListsLegal := by
  obtain ⟨hshadow, hactive, hpresets⟩ := hs
  cases h with
  | write n r => exact ⟨listOf_relist hshadow, hactive, hpresets⟩
  | nudge n dx dy => exact ⟨listOf_relist hshadow, hactive, hpresets⟩
  | stack op n => exact ⟨listOf_stack op n hshadow, hactive, hpresets⟩
  | save p => exact ⟨hshadow, hactive, fun q => sound_savePreset hshadow p q (hpresets q)⟩
  | load p => exact ⟨listOf_loadPreset hshadow (hpresets p), hactive, hpresets⟩
  | setSource n src =>
    have hsame : ∀ (t : Table WinRec 32) (rev : Nat) (m : Fin 32),
        ((t.modify n fun r => { r with source := src, revision := rev }).get m).enabled = (t.get m).enabled ∧
        ((t.modify n fun r => { r with source := src, revision := rev }).get m).pinned = (t.get m).pinned := by
      intro t rev m
      rw [Table.get_modify]
      split <;> exact ⟨rfl, rfl⟩
    exact ⟨hshadow.congr (hsame _ _), hactive.congr (hsame _ _), hpresets⟩
  | raise n => exact ⟨listOf_raised hshadow, listOf_raised hactive, hpresets⟩
  | commit n => exact ⟨hshadow, hshadow, hpresets⟩
  | tileReset => exact ⟨hshadow, listOf_default, hpresets⟩
  | powerOn => exact Scene.listsLegal_powerOn
  | states t h =>
    rw [h]
    exact ⟨hshadow, hactive, hpresets⟩

/-- A step leaves the state, or carries out the front command on the state with the rest of the queue. -/
theorem step_cases {s t : State} (h : step s = .next t) :
    t = s ∨ ∃ c rest, exec c { s with pending := rest } = .next t := by
  unfold step at h
  split at h
  · cases h
    exact .inl rfl
  next c rest _ => exact .inr ⟨c, rest, h⟩

theorem step_scene_run {s t : State} (h : step s = .next t) : SceneRun s.scene t.scene := by
  rcases step_cases h with rfl | ⟨c, rest, h⟩
  · exact .refl
  · exact exec_scene_run (s := { s with pending := rest }) h

/-- Settles O59: a step is a run of moves of the scene, and each keeps the lists and the presets sound. -/
theorem listsStayLegal : Obligations.ListsStayLegal := by
  unfold Obligations.ListsStayLegal
  intro s t hs h
  exact (step_scene_run h).keeps (fun _ _ => SceneMove.listsLegal) hs

end Sys2Proof.Machine
end

section
/-! Records, setup and cues (R2, R46, R123, R127, R128, R130 to R133): what each command does to the source records, to the
setup with its pending copy, and to the cue queue; and that every step keeps them legal and the queue in order. -/

namespace Sys2Proof.Machine

/-! ### Window records (R2) -/

/-- The constraints of Table 1-2 do not read the revision or the source. -/
theorem WinRec.ok_with_revision (r : WinRec) (v : Nat) : ({ r with revision := v } : WinRec).ok = r.ok := rfl

theorem WinRec.ok_with_source (r : WinRec) (src : Fin 32) (v : Nat) :
    ({ r with source := src, revision := v } : WinRec).ok = r.ok := rfl

/-- R2: what makes a window record legal. -/
theorem WinRec.ok_iff (r : WinRec) : r.ok = true ↔
    (r.tourLen ≤ 8 ∧ 16 ≤ r.w ∧ r.w ≤ 32768 ∧ 16 ≤ r.h ∧ r.h ≤ 16384 ∧ r.x + r.w ≤ 32768 ∧ r.y + r.h ≤ 16384 ∧
      1 ≤ r.cw ∧ r.cw ≤ 4096 ∧ 1 ≤ r.ch ∧ r.ch ≤ 4096 ∧ r.cx + r.cw ≤ 4096 ∧ r.cy + r.ch ≤ 4096 ∧
      r.cw ≤ 8 * r.w ∧ r.ch ≤ 8 * r.h ∧ r.borderWidth ≤ 15 ∧ (r.capSize = 1 ∨ r.capSize = 2) ∧ r.capLen ≤ 32) := by
  unfold WinRec.ok
  simp only [Bool.and_eq_true, decide_eq_true_eq, ceilDiv_le_iff (show 1 ≤ 8 by decide), and_assoc]

/-- R160: a nudged window stays on the canvas. -/
theorem nudged_add_le (pos : Nat) (d : Int) {size limit : Nat} (h : size ≤ limit) :
    nudged pos d size limit + size ≤ limit := by
  simp only [nudged]
  split
  · omega
  · split <;> omega

theorem WinRec.ok_nudged {r : WinRec} (h : r.ok = true) (dx dy : Int) :
    ({ r with x := nudged r.x dx r.w 32768, y := nudged r.y dy r.h 16384 } : WinRec).ok = true := by
  rw [WinRec.ok_iff] at h ⊢
  obtain ⟨h1, h2, hw, h4, hh, -, -, h8⟩ := h
  exact ⟨h1, h2, hw, h4, hh, nudged_add_le _ _ hw, nudged_add_le _ _ hh, h8⟩

theorem loadedRecord_ok {old : WinRec} {slot : Option WinRec} (hold : old.ok = true)
    (hslot : ∀ r, slot = some r → r.ok = true) : (loadedRecord old slot).ok = true := by
  unfold loadedRecord
  split
  · exact hold
  · cases slot with
    | none => exact WinRec.default_ok
    | some r => exact hslot r rfl

/-- R2 of a scene. -/
def Scene.RecordsLegal (sc : Scene) : Prop :=
  (∀ n, (sc.shadow.get n).ok = true) ∧ (∀ n, (sc.active.get n).ok = true) ∧
  ∀ p n r, (sc.presets.get p).slots.get n = some r → r.ok = true

theorem Table.set_all {α : Type} {n : Nat} {t : Table α n} {i : Fin n} {a : α} {P : α → Prop} (ht : ∀ j, P (t.get j))
    (ha : P a) (j : Fin n) : P ((t.set i a).get j) := by
  rw [Table.get_set]
  split
  · exact ha
  · exact ht j

theorem SceneMove.recordsLegal {s t : Scene} (h : SceneMove s t) (hs : s.RecordsLegal) : t.RecordsLegal := by
  obtain ⟨hshadow, hactive, hpresets⟩ := hs
  cases h with
  | write n r hr => exact ⟨Table.set_all (P := fun r : WinRec => r.ok = true) hshadow hr, hactive, hpresets⟩
  | nudge n dx dy =>
    exact ⟨Table.set_all (P := fun r : WinRec => r.ok = true) hshadow (WinRec.ok_nudged (hshadow n) dx dy), hactive, hpresets⟩
  | stack op n => exact ⟨hshadow, hactive, hpresets⟩
  | save p =>
    refine ⟨hshadow, hactive, fun q n r => ?_⟩
    simp only [Scene.savePreset, Table.get_set]
    split
    · rw [Table.get_map]
      split
      · rintro ⟨⟩
      · rintro ⟨⟩
        exact hshadow n
    · exact hpresets q n r
  | load p =>
    refine ⟨fun n => ?_, hactive, hpresets⟩
    simp only [Scene.loadPreset, Table.get_ofFn]
    exact loadedRecord_ok (hshadow n) (hpresets p n)
  | setSource n src =>
    exact ⟨Table.set_all (P := fun r : WinRec => r.ok = true) hshadow (hshadow n),
      Table.set_all (P := fun r : WinRec => r.ok = true) hactive (hactive n), hpresets⟩
  | raise n => exact ⟨hshadow, hactive, hpresets⟩
  | commit n => exact ⟨hshadow, hshadow, hpresets⟩
  | tileReset =>
    refine ⟨hshadow, fun n => ?_, hpresets⟩
    simp only [Scene.tileReset, Table.get_fill]
    exact WinRec.default_ok
  | powerOn =>
    refine ⟨fun n => ?_, fun n => ?_, fun p n r h => ?_⟩
    · rw [Scene.powerOn_shadow_get]
      exact WinRec.default_ok
    · rw [Scene.powerOn_active_get]
      exact WinRec.default_ok
    · rw [Scene.powerOn_presets_get, Preset.empty_slots_get] at h
      cases h
  | states t h =>
    rw [h]
    exact ⟨hshadow, hactive, hpresets⟩

/-! ### Source records (R46) -/

theorem setTrack_records (s : State) (n : Fin 32) (t : SourceTrack) : (s.setTrack n t).src.records = s.src.records := rfl

theorem sourceLive_records (s : State) (n : Fin 32) : (s.sourceLive n).src.records = s.src.records := by
  simp only [State.sourceLive]
  split <;> simp [setTrack_records]

theorem endFrame_records (s : State) (n : Fin 32) : (s.endFrame n).src.records = s.src.records := by
  simp only [State.endFrame]
  split
  · rw [sourceLive_records]
    rfl
  · rfl

theorem acceptStrip_records (s : State) (n : Fin 32) (st : Strip) : (s.acceptStrip n st).src.records = s.src.records := by
  simp only [State.acceptStrip]
  split
  · rw [endFrame_records]
    rfl
  · rfl

theorem startFrame_records (s : State) (n : Fin 32) (st : Strip) : (s.startFrame n st).src.records = s.src.records := by
  simp only [State.startFrame]
  rw [acceptStrip_records]
  split
  · exact endFrame_records s n
  · rfl

theorem stripArrival_records (s : State) (st : Strip) : (s.stripArrival st).src.records = s.src.records := by
  simp only [State.stripArrival]
  split
  · rfl
  · rfl
  · split
    · exact startFrame_records _ _ _
    · split
      · split
        · exact acceptStrip_records _ _ _
        · rfl
      · rfl

theorem stallSource_records (s : State) (n : Fin 32) : (s.stallSource n).src.records = s.src.records := by
  simp only [State.stallSource]
  split <;> simp [setTrack_records]

theorem loseSource_records (s : State) (n : Fin 32) : (s.loseSource n).src.records = s.src.records := by
  simp only [State.loseSource]
  split <;> simp [setTrack_records]

theorem markSource_records (s : State) (n : Fin 32) : (s.markSource n).src.records = s.src.records := by
  rw [State.markSource, loseSource_records, stallSource_records]
  rfl

theorem markSources_records (s : State) : s.markSources.src.records = s.src.records := by
  unfold State.markSources
  induction indices 32 generalizing s with
  | nil => rfl
  | cons n l ih => rw [List.foldl_cons, ih, markSource_records]

theorem frameMark_records (s : State) (o : MarkOrder) : (s.frameMark o).src.records = s.src.records :=
  frameMark_induct (P := fun u => u.src.records = s.src.records) s o (fun u h => by simpa using h)
    (fun u h => by simpa using h) (fun u h => by simpa using h) (fun u h => by rw [markSources_records, h])
    (fun u g h => by simpa using h) (fun u hand h => by simpa using h) rfl

theorem workMove_sourceRecordsLegal {s t : State} (h : WorkMove s t) (hs : SourceRecordsLegal s) :
    SourceRecordsLegal t := by
  cases h with
  | outer t h => rw [h]; exact hs
  | written t cls table i bytes h =>
    rcases writeRecord_cases h with ⟨-, n, r, -, -, -, rfl⟩ | ⟨-, n, r, hr, rfl⟩ | ⟨-, r, -, rfl⟩ | ⟨-, j, g, rfl⟩ |
      ⟨-, j, r, rfl⟩ | ⟨-, j, g, rfl⟩
    · exact hs
    · exact Table.set_all (P := fun r : SourceRec => r.ok = true) hs hr
    all_goals exact hs
  | zeroed => exact hs
  | scene t h hmove => rw [h]; exact hs
  | cueAdded => exact hs
  | cuesRemoved t h => rw [h]; exact hs
  | strobed t h => rw [h]; exact hs

theorem SourceRecordsLegal.of_eq {s t : State} (h : t.src.records = s.src.records) (hs : SourceRecordsLegal s) :
    SourceRecordsLegal t := by
  unfold SourceRecordsLegal
  rw [h]
  exact hs

theorem takeCommand_sourceRecordsLegal {s : State} (c : Control) (hs : SourceRecordsLegal s) :
    SourceRecordsLegal (s.takeCommand c) := by
  rcases takeCommand_cases s c with ⟨-, h⟩ | ⟨-, h⟩ <;> rw [h]
  · exact .of_eq rfl hs
  · exact .of_eq (by rw [(offerReply_keeps _ _).2.2.1]) ((judge_run s c).keeps (fun _ _ => workMove_sourceRecordsLegal) hs)

theorem lineMark_records (s : State) : s.lineMark.src.records = s.src.records := by
  unfold State.lineMark
  rw [(lineStart_keeps _).2.2.2.1]
  exact frameMark_records _ _

theorem panelLine_keeps (s : State) :
    s.panelLine.ring = s.ring ∧ s.panelLine.cmd = s.cmd ∧ s.panelLine.scene = s.scene ∧ s.panelLine.src = s.src ∧
    s.panelLine.store = s.store ∧ s.panelLine.cues = s.cues ∧ s.panelLine.freeIdx = s.freeIdx ∧
    s.panelLine.pending = s.pending ∧ SetupKept s s.panelLine := by
  unfold State.panelLine
  split
  · exact ⟨rfl, rfl, rfl, rfl, rfl, rfl, rfl, rfl, .of_eq rfl⟩
  · obtain ⟨hring, hcmd, hscene, hsrc, hstore, hcues, hfree, hpending⟩ := lineStart_keeps s
    exact ⟨hring, hcmd, hscene, hsrc, hstore, hcues, hfree, hpending, lineStart_setupKept s⟩

theorem lineStart_sourceRecordsLegal {s t : State} (h : exec .lineStart s = .next t) (hs : SourceRecordsLegal s) :
    SourceRecordsLegal t := by
  rcases exec_lineStart_cases s with ⟨-, he⟩ | ⟨-, he⟩ <;> rw [he] at h <;> cases h
  · exact .of_eq (lineMark_records s) hs
  · exact .of_eq (by rw [(panelLine_keeps s).2.2.2.1]) hs

theorem exec_sourceRecordsLegal {c : Instr} {s t : State} (h : exec c s = .next t) (hs : SourceRecordsLegal s) :
    SourceRecordsLegal t := by
  rcases exec_cases h with ⟨⟨-, hsrc, -⟩, -⟩ | ⟨cell, placeFirst, rfl⟩ | ⟨o, rfl⟩ | rfl | rfl | rfl | ⟨k, rfl⟩ | ⟨n, rfl⟩ |
    ⟨n, rfl⟩
  · exact .of_eq (by rw [hsrc]) hs
  · rcases exec_cellReceived_cases h with ⟨-, -, hsrc, -⟩ | ⟨f, ⟨rfl, -⟩ | rfl | rfl⟩
    · exact .of_eq (by rw [hsrc]) hs
    · exact .of_eq (stripArrival_records _ _) hs
    · exact .of_eq (by simp) hs
    · exact takeCommand_sourceRecordsLegal (s := s.mapRing f) _ hs
  · rcases exec_frameMark_cases o s with ⟨-, he⟩ | ⟨-, he⟩ <;> rw [he] at h
    · cases h
      exact .of_eq (frameMark_records s o) hs
    · exact lineStart_sourceRecordsLegal h hs
  · exact lineStart_sourceRecordsLegal h hs
  · cases h
    intro n
    show (Tracker.powerOn.records.get n).ok = true
    simp only [Tracker.powerOn, Table.get_fill]
    exact SourceRec.default_ok
  · cases h
    exact whenRunning_of hs (.of_eq (by simp) hs)
  · cases h
    exact whenRunning_of hs (.of_eq (by simp) hs)
  · cases h
    exact whenRunning_of hs (.of_eq (stallSource_records s n) hs)
  · cases h
    exact whenRunning_of hs (.of_eq (loseSource_records s n) hs)

/-! ### Setup, pending copy and cues (R123, R127, R130) -/

/-- R123, R127, R130 together. -/
def SetupAndCuesLegal (s : State) : Prop := SetupLegal s ∧ CuesLegal s

theorem Setup.ok_mono {r : Setup} {m n : Nat} (h : r.ok n = true) (hmn : m ≤ n) : r.ok m = true := by
  unfold Setup.ok at h ⊢
  simp only [Bool.and_eq_true, decide_eq_true_eq] at h ⊢
  omega

/-- R130: a legal setup with one more cue is legal while there is room. -/
theorem Setup.ok_succ {r : Setup} {n : Nat} (h : r.ok n = true) (hn : n < r.cueCapacity) : r.ok (n + 1) = true := by
  unfold Setup.ok at h ⊢
  simp only [Bool.and_eq_true, decide_eq_true_eq] at h ⊢
  omega

theorem SetupAndCuesLegal.of_eq {s t : State} (hsetup : SetupKept s t) (hcues : t.cues.queue = s.cues.queue)
    (hs : SetupAndCuesLegal s) : SetupAndCuesLegal t := by
  obtain ⟨hset, hpend, -⟩ := hsetup
  unfold SetupAndCuesLegal SetupLegal CuesLegal at *
  rw [hset, hpend, hcues]
  exact hs

/-- Cues that are legal and no more than before. -/
theorem SetupAndCuesLegal.of_shorter {s t : State} (hsetup : SetupKept s t)
    (hlen : t.cues.queue.length ≤ s.cues.queue.length) (hcues : CuesLegal t) (hs : SetupAndCuesLegal s) :
    SetupAndCuesLegal t := by
  obtain ⟨hset, hpend, -⟩ := hsetup
  refine ⟨⟨?_, ?_⟩, hcues⟩
  · rw [hset]
    exact Setup.ok_mono hs.1.1 hlen
  · rw [hpend]
    exact fun copy h => Setup.ok_mono (hs.1.2 copy h) hlen

theorem insertCue_perm (n : BitVec 32) (c : Cue) (q : List Cue) : List.Perm (insertCue n c q) (c :: q) := by
  unfold insertCue
  exact List.perm_middle.trans (by rw [List.takeWhile_append_dropWhile])

theorem putBack_perm (n : BitVec 32) (c : Cue) (q : List Cue) : List.Perm (putBack n c q) (c :: q) := by
  unfold putBack
  exact List.perm_middle.trans (by rw [List.takeWhile_append_dropWhile])

/-- R128, R130: an accepted cue has a target ahead of N and room in the queue. -/
theorem offerResult_ok {s : State} {c : Cue} (h : s.offerResult c = .ok) :
    0 < distance s.timer.wallN c.target ∧ distance s.timer.wallN c.target < 2 ^ 31 ∧
    distance s.timer.wallN c.target ≤ s.timer.setup.lookAhead ∧
    s.cues.queue.length < s.timer.admissionLimit := by
  simp only [State.offerResult] at h
  split at h
  · cases h
  · split at h
    · cases h
    · split at h
      · cases h
      · omega

theorem workMove_setupAndCuesLegal {s t : State} (h : WorkMove s t) (hs : SetupAndCuesLegal s) : SetupAndCuesLegal t := by
  cases h with
  | outer t h => rw [h]; exact hs
  | written t cls table i bytes h =>
    rcases writeRecord_cases h with ⟨-, n, r, -, -, -, rfl⟩ | ⟨-, n, r, -, rfl⟩ | ⟨-, r, hr, rfl⟩ | ⟨-, j, g, rfl⟩ |
      ⟨-, j, r, rfl⟩ | ⟨-, j, g, rfl⟩
    · exact hs
    · exact hs
    · exact ⟨⟨hs.1.1, fun copy h => by cases h; exact hr⟩, hs.2⟩
    all_goals exact hs
  | zeroed => exact hs
  | scene t h hmove => rw [h]; exact hs
  | cueAdded cue hok hperiod hoffer =>
    obtain ⟨-, -, -, hroom⟩ := offerResult_ok hoffer
    have hlen : (s.addCue cue).cues.queue.length = s.cues.queue.length + 1 := (insertCue_perm _ _ _).length_eq
    refine ⟨⟨?_, fun copy hcopy => ?_⟩, fun c hc => ?_⟩
    · rw [hlen]
      refine Setup.ok_succ hs.1.1 (Nat.lt_of_lt_of_le hroom ?_)
      unfold Timer.admissionLimit
      split
      exacts [Nat.le_refl _, Nat.min_le_left _ _]
    · have hcopy : s.timer.pendSetup = some copy := hcopy
      rw [hlen]
      refine Setup.ok_succ (hs.1.2 copy hcopy) (Nat.lt_of_lt_of_le hroom ?_)
      rw [Timer.admissionLimit, hcopy]
      exact Nat.min_le_right _ _
    · rcases List.mem_cons.mp ((insertCue_perm _ _ _).mem_iff.mp hc) with rfl | hc
      · exact ⟨hok, hperiod⟩
      · exact hs.2 c hc
  | cuesRemoved t h hsub =>
    refine .of_shorter ?_ hsub.length_le (fun c hc => hs.2 c (hsub.subset hc)) hs
    rw [h]
    exact .of_eq rfl
  | strobed t h => rw [h]; exact hs

/-- R131: the queue after one expiry: no cue is due and it is as before, or the first due cue is taken out, and put back when
it is REPEAT. -/
theorem expireOne_queue_cases (k : CueWork) (n : BitVec 32) :
    ((∀ c ∈ k.queue, atOrBefore n c.target = false) ∧ k.expireOne n = k) ∨
    ∃ c front back, k.queue = front ++ c :: back ∧ (∀ d ∈ front, atOrBefore n d.target = false) ∧
      atOrBefore n c.target = true ∧ (k.expireOne n).work = k.work.act c.action c.window c.param ∧
      ((c.mode = .once ∧ (k.expireOne n).queue = front ++ back) ∨
        (c.mode = .repeating ∧
          (k.expireOne n).queue = putBack n { c with target := nextTarget n c.target c.period } (front ++ back))) := by
  unfold CueWork.expireOne
  split
  next hnone => exact .inl ⟨fun c hc => by simpa using List.find?_eq_none.mp hnone c hc, rfl⟩
  next c hsome =>
    obtain ⟨hdue, front, back, hq, hfront⟩ := List.find?_eq_some_iff_append.mp hsome
    have hfront' : ∀ d ∈ front, atOrBefore n d.target = false := fun d hd => by simpa using hfront d hd
    have herase : k.queue.eraseP (fun d => atOrBefore n d.target) = front ++ back := by
      rw [hq, List.eraseP_append_right _ (fun d hd => by simp [hfront' d hd]), List.eraseP_cons_of_pos (p := fun d : Cue => atOrBefore n d.target) hdue]
    refine .inr ⟨c, front, back, hq, hfront', hdue, rfl, ?_⟩
    cases hm : c.mode with
    | once => exact .inl ⟨rfl, by simp [herase]⟩
    | repeating => exact .inr ⟨rfl, by simp [herase]⟩

/-- R131, R132: one expiry keeps the cues legal and their number within what it was. -/
theorem expireOne_queue_legal {k : CueWork} {n : BitVec 32} (h : ∀ c ∈ k.queue, c.ok = true ∧ c.period ≤ 65535) :
    (∀ c ∈ (k.expireOne n).queue, c.ok = true ∧ c.period ≤ 65535) ∧
    (k.expireOne n).queue.length ≤ k.queue.length := by
  rcases expireOne_queue_cases k n with ⟨-, he⟩ | ⟨c, front, back, hq, -, -, -, ⟨-, he⟩ | ⟨-, he⟩⟩
  · rw [he]
    exact ⟨h, Nat.le_refl _⟩
  · rw [hq] at h
    rw [he, hq]
    exact ⟨fun d hd => h d (by simp at hd ⊢; tauto), by simp⟩
  · rw [hq] at h
    rw [he, hq]
    refine ⟨fun d hd => ?_, by rw [(putBack_perm _ _ _).length_eq]; simp⟩
    rcases List.mem_cons.mp ((putBack_perm _ _ _).mem_iff.mp hd) with rfl | hd
    · exact h c (by simp)
    · exact h d (by simp at hd ⊢; tauto)

theorem expire_queue_legal {n : BitVec 32} (fuel : Nat) {k : CueWork} (h : ∀ c ∈ k.queue, c.ok = true ∧ c.period ≤ 65535) :
    (∀ c ∈ (CueWork.expire n fuel k).queue, c.ok = true ∧ c.period ≤ 65535) ∧
    (CueWork.expire n fuel k).queue.length ≤ k.queue.length := by
  induction fuel generalizing k with
  | zero => exact ⟨h, Nat.le_refl _⟩
  | succ fuel ih =>
    obtain ⟨h1, hlen1⟩ := expireOne_queue_legal (n := n) h
    obtain ⟨h2, hlen2⟩ := ih h1
    exact ⟨h2, Nat.le_trans hlen2 hlen1⟩

theorem markCues_queue (s : State) : s.markCues.1.cues =
    { s.cues with queue := (CueWork.expire s.timer.wallN s.cues.queue.length ⟨⟨s.scene, []⟩, s.cues.queue⟩).queue } := by
  simp only [State.markCues]
  split <;> simp

theorem markScene_queue (s : State) (g : Bool) : (s.markScene g).1.cues =
    { s.cues with
      queue := (CueWork.expire s.timer.wallN s.cues.queue.length ⟨⟨s.scene, []⟩, s.cues.queue⟩).queue
      strobes := Table.fill 8 false } := by
  simp only [State.markScene]
  rw [(markCommit_keeps _).2.2.2.2.1]
  simp only [State.markTriggers]
  rw [markCues_queue]

theorem markTimer_setupAndCuesLegal {s : State} (hs : SetupAndCuesLegal s) : SetupAndCuesLegal s.markTimer := by
  obtain ⟨l, good, bad, g, htimer⟩ := markTimer_timer s
  obtain ⟨-, -, -, -, hcues, -⟩ := markTimer_keeps s
  refine ⟨⟨?_, ?_⟩, ?_⟩
  · rw [htimer, hcues]
    cases h : s.timer.pendSetup with
    | none => exact hs.1.1
    | some copy => exact hs.1.2 copy h
  · rw [htimer]
    rintro copy ⟨⟩
  · unfold CuesLegal
    rw [hcues]
    exact hs.2

theorem frameMark_setupAndCuesLegal {s : State} (o : MarkOrder) (hs : SetupAndCuesLegal s) :
    SetupAndCuesLegal (s.frameMark o) := by
  refine frameMark_induct s o ?_ ?_ (fun _ => markTimer_setupAndCuesLegal) ?_ ?_ ?_ hs
  · exact fun u hu => hu.of_eq (.of_eq (by simp)) (by simp)
  · exact fun u hu => hu.of_eq (.of_eq (by simp)) (by simp)
  · exact fun u hu => hu.of_eq (.of_eq (by simp)) (by simp)
  · intro u g hu
    obtain ⟨hlegal, hlen⟩ := expire_queue_legal (n := u.timer.wallN) u.cues.queue.length (k := ⟨⟨u.scene, []⟩, u.cues.queue⟩)
      hu.2
    refine .of_shorter (.of_eq (by simp)) ?_ ?_ hu
    · rw [markScene_queue]
      exact hlen
    · unfold CuesLegal
      rw [markScene_queue]
      exact hlegal
  · exact fun u h hu => hu.of_eq (.of_eq (by simp)) (by simp)

theorem lineStart_setupAndCuesLegal {s t : State} (h : exec .lineStart s = .next t) (hs : SetupAndCuesLegal s) :
    SetupAndCuesLegal t := by
  rcases exec_lineStart_cases s with ⟨-, he⟩ | ⟨-, he⟩ <;> rw [he] at h <;> cases h
  · have hs' : SetupAndCuesLegal { s with freeIdx := s.freeIdx + 1 } := hs
    unfold State.lineMark
    exact (frameMark_setupAndCuesLegal _ hs').of_eq (lineStart_setupKept _) (by rw [(lineStart_keeps _).2.2.2.2.2.1])
  · obtain ⟨-, -, -, -, -, hcues, -, -, hsetup⟩ := panelLine_keeps s
    exact hs.of_eq hsetup (by rw [hcues])

theorem takeCommand_setupAndCuesLegal {s : State} (c : Control) (hs : SetupAndCuesLegal s) :
    SetupAndCuesLegal (s.takeCommand c) := by
  rcases takeCommand_cases s c with ⟨-, h⟩ | ⟨-, h⟩ <;> rw [h]
  · exact ⟨⟨Setup.ok_mono hs.1.1 (Nat.zero_le _), fun copy h => by cases h⟩, fun c hc => by cases hc⟩
  · have hwork := (judge_run s c).keeps (fun _ _ => workMove_setupAndCuesLegal) hs
    exact hwork.of_eq (.of_eq (by simp)) (by simp)

theorem expireCue_queue (s : State) :
    s.expireCue.cues = { s.cues with queue := (CueWork.expireOne ⟨⟨s.scene, []⟩, s.cues.queue⟩ s.timer.wallN).queue } := by
  unfold State.expireCue
  simp only
  split
  next h => simp [CueWork.expireOne, h]
  next => split <;> simp

theorem exec_setupAndCuesLegal {c : Instr} {s t : State} (h : exec c s = .next t) (hs : SetupAndCuesLegal s) :
    SetupAndCuesLegal t := by
  rcases exec_cases h with ⟨⟨-, -, -, -, hcues, -⟩, hsetup⟩ | ⟨cell, placeFirst, rfl⟩ | ⟨o, rfl⟩ | rfl | rfl | rfl | ⟨k, rfl⟩ |
    ⟨n, rfl⟩ | ⟨n, rfl⟩
  · exact hs.of_eq hsetup (by rw [hcues])
  · rcases exec_cellReceived_cases h with ⟨htimer, -, -, -, -, hcues, -⟩ | ⟨f, ⟨rfl, -⟩ | rfl | rfl⟩
    · exact hs.of_eq (.of_eq htimer) (by rw [hcues])
    · exact hs.of_eq (.of_eq (by simp)) (by simp)
    · exact hs.of_eq (syncArrival_setupKept (s.mapRing f) _ _) (by simp)
    · exact takeCommand_setupAndCuesLegal (s := s.mapRing f) _ hs
  · rcases exec_frameMark_cases o s with ⟨-, he⟩ | ⟨-, he⟩ <;> rw [he] at h
    · cases h
      exact frameMark_setupAndCuesLegal o hs
    · exact lineStart_setupAndCuesLegal h hs
  · exact lineStart_setupAndCuesLegal h hs
  · cases h
    exact ⟨⟨by show Setup.powerOn.ok 0 = true; decide, fun copy h => by cases h⟩, fun c hc => by cases hc⟩
  · cases h
    obtain ⟨hlegal, hlen⟩ := expireOne_queue_legal (n := s.timer.wallN) (k := ⟨⟨s.scene, []⟩, s.cues.queue⟩) hs.2
    refine whenRunning_of hs (.of_shorter (.of_eq (by simp)) ?_ ?_ hs)
    · rw [expireCue_queue]
      exact hlen
    · unfold CuesLegal
      rw [expireCue_queue]
      exact hlegal
  · cases h
    exact whenRunning_of hs (hs.of_eq (.of_eq (by simp)) (by simp))
  · cases h
    exact whenRunning_of hs (hs.of_eq (.of_eq (by simp)) (by simp))
  · cases h
    exact whenRunning_of hs (hs.of_eq (.of_eq (by simp)) (by simp))

end Sys2Proof.Machine
end

section
/-! The order of the cue queue (R127, R128, R131 to R133): distances from N on the ring of 32-bit numbers, what inserting and
putting back keep, that the due cues of a mark are all taken, and that every step keeps the queue in order. -/

namespace Sys2Proof.Machine

/-! ### Distances (R127) -/

/-- R127: a target is ahead of N exactly at a distance of 1 .. 2^31 - 1. -/
theorem atOrBefore_eq_false_iff (n t : BitVec 32) :
    atOrBefore n t = false ↔ 0 < distance n t ∧ distance n t < 2 ^ 31 := by
  simp only [atOrBefore, distance, decide_eq_false_iff_not, BitVec.toNat_sub]
  have := n.isLt
  have := t.isLt
  omega

/-- R127: among targets ahead of two wall frame numbers the order by distance is the same for both. -/
theorem distance_le_of_ahead {n m a b : BitVec 32} (ha : atOrBefore n a = false) (hb : atOrBefore n b = false)
    (ha' : atOrBefore m a = false) (hb' : atOrBefore m b = false) (h : distance n a ≤ distance n b) :
    distance m a ≤ distance m b := by
  rw [atOrBefore_eq_false_iff] at ha hb ha' hb'
  simp only [distance, BitVec.toNat_sub] at *
  have := n.isLt
  have := m.isLt
  have := a.isLt
  have := b.isLt
  omega

/-- R132: a REPEAT cue that is due is put back 1 .. period frames after N, the first whole number of periods after its old
target that passes N. -/
theorem nextTarget_spec {n t : BitVec 32} {period : Nat} (hdue : atOrBefore n t = true) (hpos : 1 ≤ period)
    (hle : period ≤ 65535) : ∃ k, nextTarget n t period = t + BitVec.ofNat 32 (period * (k + 1)) ∧
      k * period ≤ (n - t).toNat ∧ 0 < distance n (nextTarget n t period) ∧
      distance n (nextTarget n t period) ≤ period ∧ atOrBefore n (nextTarget n t period) = false := by
  have hback : (n - t).toNat ≤ 2 ^ 31 := by simpa [atOrBefore] using hdue
  have hdiv := Nat.div_add_mod (n - t).toNat period
  have hmod := Nat.mod_lt (n - t).toNat hpos
  have hsucc : period * ((n - t).toNat / period + 1) = period * ((n - t).toNat / period) + period := Nat.mul_succ _ _
  have hdist : 0 < distance n (nextTarget n t period) ∧ distance n (nextTarget n t period) ≤ period := by
    simp only [distance, nextTarget, BitVec.toNat_sub, BitVec.toNat_add, BitVec.toNat_ofNat] at *
    have := n.isLt
    have := t.isLt
    omega
  refine ⟨(n - t).toNat / period, rfl, ?_, hdist.1, hdist.2, ?_⟩
  · rw [Nat.mul_comm]
    omega
  · rw [atOrBefore_eq_false_iff]
    omega

/-! ### Inserting a cue (R128, R132) -/

/-- The cues ahead of N stand in order of distance; cues that are due may stand anywhere between them. -/
def AheadInOrder (n : BitVec 32) (q : List Cue) : Prop :=
  (q.filter fun c => !atOrBefore n c.target).Pairwise fun a b => distance n a.target ≤ distance n b.target

theorem aheadInOrder_iff {n : BitVec 32} {q : List Cue} (h : ∀ c ∈ q, atOrBefore n c.target = false) :
    AheadInOrder n q ↔ q.Pairwise fun a b => distance n a.target ≤ distance n b.target := by
  unfold AheadInOrder
  rw [List.filter_eq_self.mpr fun c hc => by simp [h c hc]]

/-- R132: putting a cue back keeps the cues ahead of N in order of distance. -/
theorem aheadInOrder_putBack {n : BitVec 32} {c : Cue} {q : List Cue} (hc : atOrBefore n c.target = false)
    (hq : AheadInOrder n q) : AheadInOrder n (putBack n c q) := by
  unfold AheadInOrder at hq ⊢
  unfold putBack
  generalize hp : (fun d : Cue => atOrBefore n d.target || decide (distance n d.target ≤ distance n c.target)) = p
  have hsplit := List.takeWhile_append_dropWhile (p := p) (l := q)
  rw [← hsplit, List.filter_append, List.pairwise_append] at hq
  obtain ⟨hfront, hback, hcross⟩ := hq
  rw [List.filter_append, List.filter_cons_of_pos (by simp [hc]), List.pairwise_append, List.pairwise_cons]
  have hbefore : ∀ a ∈ (q.takeWhile p).filter (fun d => !atOrBefore n d.target),
      distance n a.target ≤ distance n c.target := by
    intro a ha
    obtain ⟨ha, hahead⟩ := List.mem_filter.mp ha
    have := List.mem_takeWhile_imp ha
    rw [← hp] at this
    simp_all
  have hafter : ∀ b ∈ (q.dropWhile p).filter (fun d => !atOrBefore n d.target),
      distance n c.target ≤ distance n b.target := by
    cases hd : q.dropWhile p with
    | nil => simp
    | cons d rest =>
      have hnot : p d = false := by
        have := List.head_dropWhile_not p (l := q) (by simp [hd])
        simpa [hd] using this
      rw [← hp] at hnot
      simp only [Bool.or_eq_false_iff, decide_eq_false_iff_not] at hnot
      rw [hd, List.filter_cons_of_pos (by simp [hnot.1]), List.pairwise_cons] at hback
      rw [List.filter_cons_of_pos (by simp [hnot.1])]
      intro b hb
      rcases List.mem_cons.mp hb with rfl | hb
      · omega
      · have := hback.1 b hb
        omega
  refine ⟨hfront, ⟨hafter, hback⟩, fun a ha b hb => ?_⟩
  rcases List.mem_cons.mp hb with rfl | hb
  · exact hbefore a ha
  · exact hcross a ha b hb

theorem insertCue_eq_putBack {n : BitVec 32} {c : Cue} {q : List Cue} (h : ∀ d ∈ q, atOrBefore n d.target = false) :
    insertCue n c q = putBack n c q := by
  have hp : ∀ d ∈ q, (atOrBefore n d.target || decide (distance n d.target ≤ distance n c.target)) =
      decide (distance n d.target ≤ distance n c.target) := fun d hd => by simp [h d hd]
  unfold insertCue putBack
  clear h
  have hboth : ∀ (p r : Cue → Bool) (l : List Cue), (∀ d ∈ l, p d = r d) →
      l.takeWhile p = l.takeWhile r ∧ l.dropWhile p = l.dropWhile r := by
    intro p r l
    induction l with
    | nil => exact fun _ => ⟨rfl, rfl⟩
    | cons d l ih =>
      intro hl
      obtain ⟨h1, h2⟩ := ih fun e he => hl e (List.mem_cons_of_mem d he)
      simp [List.takeWhile_cons, List.dropWhile_cons, hl d List.mem_cons_self, h1, h2]
  obtain ⟨h1, h2⟩ := hboth _ _ q hp
  rw [h1, h2]

/-! ### Expiry (R131, R132) -/

/-- One expiry keeps the cues ahead of N in order. -/
theorem aheadInOrder_expireOne {k : CueWork} {n : BitVec 32} (hlegal : ∀ c ∈ k.queue, c.mode = .repeating →
    1 ≤ c.period ∧ c.period ≤ 65535) (hq : AheadInOrder n k.queue) : AheadInOrder n (k.expireOne n).queue := by
  rcases expireOne_queue_cases k n with ⟨-, he⟩ | ⟨c, front, back, hsplit, -, hdue, -, hcase⟩
  · rwa [he]
  · have hrest : AheadInOrder n (front ++ back) := by
      rw [hsplit] at hq
      unfold AheadInOrder at hq ⊢
      rwa [List.filter_append, List.filter_cons_of_neg (by simp [hdue]), ← List.filter_append] at hq
    rcases hcase with ⟨-, he⟩ | ⟨hmode, he⟩
    · rwa [he]
    · obtain ⟨hpos, hle⟩ := hlegal c (by simp [hsplit]) hmode
      obtain ⟨-, -, -, -, -, hahead⟩ := nextTarget_spec hdue hpos hle
      rw [he]
      exact aheadInOrder_putBack hahead hrest

/-- The cues that are due. -/
def dueCount (n : BitVec 32) (q : List Cue) : Nat := q.countP fun c => atOrBefore n c.target

theorem dueCount_le_length (n : BitVec 32) (q : List Cue) : dueCount n q ≤ q.length := List.countP_le_length

theorem dueCount_eq_zero {n : BitVec 32} {q : List Cue} :
    dueCount n q = 0 ↔ ∀ c ∈ q, atOrBefore n c.target = false := by
  simp [dueCount, List.countP_eq_zero]

/-- R131, R132: each expiry leaves one due cue less, since a REPEAT cue is put back after N. -/
theorem dueCount_expireOne {k : CueWork} {n : BitVec 32} (hlegal : ∀ c ∈ k.queue, c.mode = .repeating →
    1 ≤ c.period ∧ c.period ≤ 65535) : dueCount n (k.expireOne n).queue = dueCount n k.queue - 1 := by
  rcases expireOne_queue_cases k n with ⟨hnone, he⟩ | ⟨c, front, back, hsplit, -, hdue, -, hcase⟩
  · rw [he, dueCount_eq_zero.mpr hnone]
  · have hcount : dueCount n k.queue = dueCount n (front ++ back) + 1 := by
      simp only [dueCount, hsplit, List.countP_append, List.countP_cons, hdue, if_true]
      omega
    rcases hcase with ⟨-, he⟩ | ⟨hmode, he⟩
    · rw [he, hcount, Nat.add_sub_cancel]
    · obtain ⟨hpos, hle⟩ := hlegal c (by simp [hsplit]) hmode
      obtain ⟨-, -, -, -, -, hahead⟩ := nextTarget_spec hdue hpos hle
      rw [he, hcount, Nat.add_sub_cancel]
      simp only [dueCount]
      rw [(putBack_perm _ _ _).countP_eq, List.countP_cons, if_neg (by simp [hahead])]
      rfl

/-- R127: every REPEAT cue has a period of 1 .. 65535. -/
def PeriodsLegal (q : List Cue) : Prop := ∀ c ∈ q, c.mode = .repeating → 1 ≤ c.period ∧ c.period ≤ 65535

theorem periodsLegal_expireOne {k : CueWork} {n : BitVec 32} (h : PeriodsLegal k.queue) :
    PeriodsLegal (k.expireOne n).queue := by
  rcases expireOne_queue_cases k n with ⟨-, he⟩ | ⟨c, front, back, hsplit, -, -, -, ⟨-, he⟩ | ⟨-, he⟩⟩ <;> rw [he]
  · exact h
  · rw [hsplit] at h
    exact fun d hd => h d (by simp at hd ⊢; tauto)
  · rw [hsplit] at h
    intro d hd
    rcases List.mem_cons.mp ((putBack_perm _ _ _).mem_iff.mp hd) with rfl | hd
    · exact h c (by simp)
    · exact h d (by simp at hd ⊢; tauto)

/-- R131: expiry with fuel for every due cue leaves none due, keeps the periods legal and the cues ahead of N in order. -/
theorem expire_queue_spec {n : BitVec 32} (fuel : Nat) {k : CueWork} (hlegal : PeriodsLegal k.queue)
    (hfuel : dueCount n k.queue ≤ fuel) :
    (∀ c ∈ (CueWork.expire n fuel k).queue, atOrBefore n c.target = false) ∧
    (AheadInOrder n k.queue → AheadInOrder n (CueWork.expire n fuel k).queue) := by
  induction fuel generalizing k with
  | zero => exact ⟨dueCount_eq_zero.mp (Nat.le_zero.mp hfuel), id⟩
  | succ fuel ih =>
    have hdue := dueCount_expireOne (n := n) hlegal
    obtain ⟨hnone, horder⟩ := ih (periodsLegal_expireOne (n := n) hlegal) (by omega)
    exact ⟨hnone, fun h => horder (aheadInOrder_expireOne hlegal h)⟩

theorem CuesLegal.periods {s : State} (h : CuesLegal s) : PeriodsLegal s.cues.queue := by
  intro c hc hmode
  obtain ⟨hok, hperiod⟩ := h c hc
  refine ⟨?_, hperiod⟩
  simp only [Cue.ok, hmode, Bool.and_eq_true, Bool.not_eq_true', decide_true, Bool.true_and,
    decide_eq_false_iff_not] at hok
  omega

/-! ### Every step -/

theorem QueueInOrder.of_eq {s t : State} (hsetup : SetupKept s t) (hcues : t.cues.queue = s.cues.queue)
    (hs : QueueInOrder s) : QueueInOrder t := by
  unfold QueueInOrder at *
  rw [hsetup.2.2, hcues]
  exact hs

theorem queueInOrder_of_empty {s : State} (h : s.cues.queue = []) : QueueInOrder s := by
  unfold QueueInOrder
  rw [h]
  exact ⟨List.Pairwise.nil, fun c hc => by cases hc⟩

theorem queueInOrder_of_ahead {s : State} (hnone : ∀ c ∈ s.cues.queue, atOrBefore s.timer.wallN c.target = false)
    (h : AheadInOrder s.timer.wallN s.cues.queue) : QueueInOrder s := ⟨(aheadInOrder_iff hnone).mp h, hnone⟩

theorem workMove_queueInOrder {s t : State} (h : WorkMove s t) (hs : QueueInOrder s) : QueueInOrder t := by
  cases h with
  | outer t h => rw [h]; exact hs
  | written t cls table i bytes h =>
    rcases writeRecord_cases h with ⟨-, n, r, -, -, -, rfl⟩ | ⟨-, n, r, -, rfl⟩ | ⟨-, r, -, rfl⟩ | ⟨-, j, g, rfl⟩ |
      ⟨-, j, r, rfl⟩ | ⟨-, j, g, rfl⟩ <;> exact hs
  | zeroed => exact hs
  | scene t h hmove => rw [h]; exact hs
  | cueAdded cue hok hperiod hoffer =>
    obtain ⟨hpos, hlt, -, -⟩ := offerResult_ok hoffer
    have hahead := (atOrBefore_eq_false_iff _ _).mpr ⟨hpos, hlt⟩
    refine queueInOrder_of_ahead (fun c hc => ?_) ?_
    · rcases List.mem_cons.mp ((insertCue_perm _ _ _).mem_iff.mp hc) with rfl | hc
      · exact hahead
      · exact hs.2 c hc
    · show AheadInOrder s.timer.wallN (insertCue s.timer.wallN cue s.cues.queue)
      rw [insertCue_eq_putBack hs.2]
      exact aheadInOrder_putBack hahead ((aheadInOrder_iff hs.2).mpr hs.1)
  | cuesRemoved t h hsub =>
    rw [h]
    exact ⟨hs.1.sublist hsub, fun c hc => hs.2 c (hsub.subset hc)⟩
  | strobed t h => rw [h]; exact hs

theorem takeCommand_queueInOrder {s : State} (c : Control) (hs : QueueInOrder s) : QueueInOrder (s.takeCommand c) := by
  rcases takeCommand_cases s c with ⟨-, h⟩ | ⟨-, h⟩ <;> rw [h]
  · exact queueInOrder_of_empty rfl
  · exact ((judge_run s c).keeps (fun _ _ => workMove_queueInOrder) hs).of_eq (.of_eq (by simp)) (by simp)

/-- R131: the wall frame number moves on, and the cues still ahead of it are in order of distance from it. -/
theorem aheadInOrder_of_move {n : BitVec 32} {s : State} (hs : QueueInOrder s) : AheadInOrder n s.cues.queue := by
  refine (hs.1.filter _).imp_of_mem fun {a b} ha hb hab => ?_
  obtain ⟨ha, ha'⟩ := List.mem_filter.mp ha
  obtain ⟨hb, hb'⟩ := List.mem_filter.mp hb
  exact distance_le_of_ahead (hs.2 a ha) (hs.2 b hb) (by simpa using ha') (by simpa using hb') hab

theorem markScene_noneDue {s : State} (g : Bool) (hlegal : PeriodsLegal s.cues.queue) :
    (∀ c ∈ (s.markScene g).1.cues.queue, atOrBefore s.timer.wallN c.target = false) ∧
    (AheadInOrder s.timer.wallN s.cues.queue → AheadInOrder s.timer.wallN (s.markScene g).1.cues.queue) := by
  rw [markScene_queue]
  exact expire_queue_spec _ hlegal (dueCount_le_length _ _)

theorem frameMark_queueInOrder {s : State} (o : MarkOrder) (hlegal : PeriodsLegal s.cues.queue) (hs : QueueInOrder s) :
    QueueInOrder (s.frameMark o) := by
  refine frameMark_stages (P := fun u => u.cues.queue = s.cues.queue)
    (Q := fun u => PeriodsLegal u.cues.queue ∧ AheadInOrder u.timer.wallN u.cues.queue) s o
    ?compP ?intP ?timer ?srcQ ?scene ?store ?srcR ?compR ?intR rfl
  case compP => exact fun u h => by simpa using h
  case intP => exact fun u h => by simpa using h
  case timer =>
    intro u h
    obtain ⟨-, -, -, -, hcues, -⟩ := markTimer_keeps u
    rw [hcues, h]
    exact ⟨hlegal, aheadInOrder_of_move hs⟩
  case srcQ => exact fun u h => by simpa using h
  case scene =>
    rintro u g ⟨hperiods, horder⟩
    obtain ⟨hnone, hkeeps⟩ := markScene_noneDue g hperiods
    have htimer : (u.markScene g).1.timer = u.timer := (markScene_keeps g u).1
    refine queueInOrder_of_ahead ?_ ?_ <;> rw [htimer]
    exacts [hnone, hkeeps horder]
  case store => exact fun u h hu => hu.of_eq (.of_eq (by simp)) (by simp)
  case srcR => exact fun u hu => hu.of_eq (.of_eq (by simp)) (by simp)
  case compR => exact fun u hu => hu.of_eq (.of_eq (by simp)) (by simp)
  case intR => exact fun u hu => hu.of_eq (.of_eq (by simp)) (by simp)

theorem lineStart_queueInOrder {s t : State} (h : exec .lineStart s = .next t) (hlegal : PeriodsLegal s.cues.queue)
    (hs : QueueInOrder s) : QueueInOrder t := by
  rcases exec_lineStart_cases s with ⟨-, he⟩ | ⟨-, he⟩ <;> rw [he] at h <;> cases h
  · have hmark := frameMark_queueInOrder (s := { s with freeIdx := s.freeIdx + 1 })
      (Config.lineMarkOrder s.freeIdx) hlegal hs
    unfold State.lineMark
    exact hmark.of_eq (lineStart_setupKept _) (by rw [(lineStart_keeps _).2.2.2.2.2.1])
  · obtain ⟨-, -, -, -, -, hcues, -, -, hsetup⟩ := panelLine_keeps s
    exact hs.of_eq hsetup (by rw [hcues])

theorem exec_queueInOrder {c : Instr} {s t : State} (h : exec c s = .next t) (hlegal : PeriodsLegal s.cues.queue)
    (hs : QueueInOrder s) : QueueInOrder t := by
  rcases exec_cases h with ⟨⟨-, -, -, -, hcues, -⟩, hsetup⟩ | ⟨cell, placeFirst, rfl⟩ | ⟨o, rfl⟩ | rfl | rfl | rfl | ⟨k, rfl⟩ |
    ⟨n, rfl⟩ | ⟨n, rfl⟩
  · exact hs.of_eq hsetup (by rw [hcues])
  · rcases exec_cellReceived_cases h with ⟨htimer, -, -, -, -, hcues, -⟩ | ⟨f, ⟨rfl, -⟩ | rfl | rfl⟩
    · exact hs.of_eq (.of_eq htimer) (by rw [hcues])
    · exact hs.of_eq (.of_eq (by simp)) (by simp)
    · exact hs.of_eq (syncArrival_setupKept (s.mapRing f) _ _) (by simp)
    · exact takeCommand_queueInOrder (s := s.mapRing f) _ hs
  · rcases exec_frameMark_cases o s with ⟨-, he⟩ | ⟨-, he⟩ <;> rw [he] at h
    · cases h
      exact frameMark_queueInOrder o hlegal hs
    · exact lineStart_queueInOrder h hlegal hs
  · exact lineStart_queueInOrder h hlegal hs
  · cases h
    exact queueInOrder_of_empty rfl
  · cases h
    have hnone : ∀ c ∈ s.cues.queue, atOrBefore s.timer.wallN c.target = false := hs.2
    refine whenRunning_of hs (hs.of_eq (.of_eq (by simp)) ?_)
    rw [expireCue_queue]
    rcases expireOne_queue_cases ⟨⟨s.scene, []⟩, s.cues.queue⟩ s.timer.wallN with ⟨-, he⟩ | ⟨c, front, back, hq, -, hdue, -⟩
    · rw [he]
    · have hq : s.cues.queue = front ++ c :: back := hq
      have := hnone c (by rw [hq]; simp)
      simp [this] at hdue
  · cases h
    exact whenRunning_of hs (hs.of_eq (.of_eq (by simp)) (by simp))
  · cases h
    exact whenRunning_of hs (hs.of_eq (.of_eq (by simp)) (by simp))
  · cases h
    exact whenRunning_of hs (hs.of_eq (.of_eq (by simp)) (by simp))

/-- What every command keeps, where the queue of waiting commands does not matter, every step keeps. -/
theorem step_keeps {P : State → Prop} (hexec : ∀ c s t, exec c s = .next t → P s → P t)
    (hpending : ∀ (s : State) rest, P s → P { s with pending := rest }) {s t : State} (h : step s = .next t) (hs : P s) :
    P t := by
  rcases step_cases h with rfl | ⟨c, rest, h⟩
  · exact hs
  · exact hexec c _ t h (hpending s rest hs)

/-- Settles O58: the window records by the moves of the scene; the source records, the setup with the cues, and the order of
the queue by what each command does to them. -/
theorem recordsSetupAndCuesStayLegal : Obligations.RecordsSetupAndCuesStayLegal := by
  unfold Obligations.RecordsSetupAndCuesStayLegal
  refine fun s t h => ⟨fun hwin hsrc => ⟨?_, ?_⟩, fun hsetup hcues => ?_, fun hcues horder => ?_⟩
  · exact (step_scene_run h).keeps (P := Scene.RecordsLegal) (fun _ _ => SceneMove.recordsLegal) hwin
  · exact step_keeps (fun _ _ _ => exec_sourceRecordsLegal) (fun _ _ => id) h hsrc
  · exact step_keeps (P := SetupAndCuesLegal) (fun _ _ _ => exec_setupAndCuesLegal) (fun _ _ => id) h ⟨hsetup, hcues⟩
  · rcases step_cases h with rfl | ⟨c, rest, h⟩
    · exact horder
    · exact exec_queueInOrder (s := { s with pending := rest }) h hcues.periods horder

end Sys2Proof.Machine
end

section
/-! The moves of the Store Manager (R77 to R95), one for each operation of the model; that every command is a run of them;
and the facts about buffers, roles and pages that the moves keep. -/

namespace Sys2Proof.Machine

/-! ### The moves -/

/-- What one operation of the model can do to the store of one window without moving a page. -/
inductive WinMove : WinStore → WinStore → Prop
  | kept (w : WinStore) : WinMove w w
  | started (w : WinStore) (s : Fin 32) (tag : Byte) (mode : DisplayMode) : WinMove w (w.onStart s tag mode)
  | completed (w : WinStore) (s : Fin 32) (tag : Byte) (mode : DisplayMode) : WinMove w (w.onComplete s tag mode)
  | rejected (w : WinStore) (s : Fin 32) (tag : Byte) : WinMove w (w.onReject s tag)
  | rearmed (w : WinStore) : WinMove w w.rearm
  | switched (w : WinStore) (feed : Option (Fin 32)) : WinMove w (w.switched feed)
  | marked (w : WinStore) (mode : DisplayMode) (live : Bool) : WinMove w (w.atMark mode live)

/-- What one operation of the model can do to the Store Manager. -/
inductive StoreMove : StoreManager → StoreManager → Prop
  | mapped (m : StoreManager) (f : Fin 32 → WinStore → WinStore) (h : ∀ n w, WinMove w (f n w)) : StoreMove m (m.mapWins f)
  | intake (m : StoreManager) (src : SourceRec) (s : Fin 32) (st : Strip) : StoreMove m (m.intake src s st)
  | allocated (m : StoreManager) (h : HandOver) : StoreMove m (m.allocate h)
  | published (m : StoreManager) (h : HandOver) : StoreMove m (m.publish h)
  | tileReset (m : StoreManager) (g : Geometry) : StoreMove m (m.tileReset g)
  | powerOn (m : StoreManager) : StoreMove m StoreManager.powerOn

/-- A run of moves of the Store Manager. -/
abbrev StoreRun : StoreManager → StoreManager → Prop := Relation.ReflTransGen StoreMove

theorem StoreRun.of_eq {m k : StoreManager} (h : k = m) : StoreRun m k := h ▸ .refl

/-- A property that every move keeps is kept by a run. -/
theorem StoreRun.keeps {P : StoreManager → Prop} (hmove : ∀ m k, StoreMove m k → P m → P k) {m k : StoreManager}
    (h : StoreRun m k) (hm : P m) : P k := by
  induction h with
  | refl => exact hm
  | tail _ hstep ih => exact hmove _ _ hstep ih

/-! ### The operations as moves -/

theorem WinMove.of_ite {c : Prop} [Decidable c] {w v : WinStore} (h : WinMove w v) : WinMove w (if c then v else w) := by
  split
  · exact h
  · exact .kept w

theorem frameStart_move (m : StoreManager) (active : Table WinRec 32) (s : Fin 32) (tag : Byte) :
    StoreMove m (m.frameStart active s tag) := .mapped m _ fun _ w => .started w _ _ _

theorem frameEnd_move (m : StoreManager) (active : Table WinRec 32) (s : Fin 32) (tag : Byte) (complete : Bool) :
    StoreMove m (m.frameEnd active s tag complete) := by
  refine .mapped m _ fun n w => ?_
  cases complete
  · exact .rejected w s tag
  · exact .completed w s tag _

theorem rewritten_move (m : StoreManager) (s : Fin 32) : StoreMove m (m.rewritten s) :=
  .mapped m _ fun _ w => .of_ite (.switched w _)

theorem markSwitches_move (m : StoreManager) (h : HandOver) : StoreMove m (m.markSwitches h) :=
  .mapped m _ fun _ w => .of_ite (.switched w _)

theorem freezeEntry_move (m : StoreManager) (h : HandOver) : StoreMove m (m.freezeEntry h) :=
  .mapped m _ fun _ w => .of_ite (.rearmed w)

theorem rearmMoved_move (m : StoreManager) (h : HandOver) : StoreMove m (m.rearmMoved h) :=
  .mapped m _ fun _ w => .of_ite (.rearmed w)

theorem swaps_move (m : StoreManager) (h : HandOver) (states : Table SourceTrack 32) : StoreMove m (m.swaps h states) :=
  .mapped m _ fun _ w => .marked w _ _

/-- R83: the Store Manager's work at a mark is a run of moves. -/
theorem atMark_run (m : StoreManager) (h : HandOver) (states : Table SourceTrack 32) : StoreRun m (m.atMark h states) := by
  have hserved : StoreRun m (if h.allocates then (m.markSwitches h).allocate h else m.markSwitches h) := by
    split
    · exact .tail (.single (markSwitches_move m h)) (.allocated _ h)
    · exact .single (markSwitches_move m h)
  exact .tail (.tail (.tail hserved (freezeEntry_move _ h)) (swaps_move _ h states)) (.published _ h)

theorem handSwitches_store_run (s : State) (l : List (Fin 32)) : StoreRun s.store (s.handSwitches l).store :=
  .tail (.single (markSwitches_move _ _)) (.published _ _)

/-! ### The Source Tracker's reports -/

@[simp] theorem sourceLive_store (s : State) (n : Fin 32) : (s.sourceLive n).store = s.store := by
  simp only [State.sourceLive]
  split <;> simp [State.setTrack]

theorem endFrame_store (s : State) (n : Fin 32) : (s.endFrame n).store =
    s.store.frameEnd s.scene.active n ((s.src.states.get n).tag.getD 0)
      ((s.src.states.get n).isComplete (s.src.records.get n)) := by
  simp only [State.endFrame]
  split
  · exact sourceLive_store _ n
  · rfl

theorem acceptStrip_store_run (s : State) (n : Fin 32) (st : Strip) : StoreRun s.store (s.acceptStrip n st).store := by
  have htaken : StoreRun s.store (s.store.intake (s.src.records.get n) n st) := .single (.intake _ _ _ _)
  simp only [State.acceptStrip, State.setTrack]
  generalize s.store.intake (s.src.records.get n) n st = taken at htaken ⊢
  split
  · rw [endFrame_store]
    exact htaken.tail (frameEnd_move _ _ _ _ _)
  · exact htaken

theorem startFrame_store_run (s : State) (n : Fin 32) (st : Strip) : StoreRun s.store (s.startFrame n st).store := by
  simp only [State.startFrame]
  have hended : StoreRun s.store (if (s.src.states.get n).frameOpen then s.endFrame n else s).store := by
    split
    · rw [endFrame_store]
      exact .single (frameEnd_move _ _ _ _ _)
    · exact .refl
  generalize (if (s.src.states.get n).frameOpen then s.endFrame n else s) = u at hended ⊢
  have hopened : StoreRun s.store (u.openFrame n st.tag).store := .tail hended (frameStart_move _ _ _ _)
  exact hopened.trans (acceptStrip_store_run _ n st)

theorem stripArrival_store_run (s : State) (st : Strip) : StoreRun s.store (s.stripArrival st).store := by
  unfold State.stripArrival
  split
  · exact .refl
  · exact .refl
  · simp only
    split
    · exact startFrame_store_run _ _ _
    · split
      · split
        · exact acceptStrip_store_run _ _ _
        · exact .refl
      · exact .refl

@[simp] theorem stallSource_store (s : State) (n : Fin 32) : (s.stallSource n).store = s.store := by
  simp only [State.stallSource]
  split <;> simp [State.setTrack]

@[simp] theorem loseSource_store (s : State) (n : Fin 32) : (s.loseSource n).store = s.store := by
  simp only [State.loseSource]
  split <;> simp [State.setTrack]

@[simp] theorem markSources_store (s : State) : s.markSources.store = s.store := by
  unfold State.markSources
  induction indices 32 generalizing s with
  | nil => rfl
  | cons n l ih => rw [List.foldl_cons, ih, State.markSource, loseSource_store, stallSource_store, State.setTrack]

/-! ### Every command is a run -/

theorem workMove_store_run {s t : State} (h : WorkMove s t) : StoreRun s.store t.store := by
  cases h with
  | outer t h => rw [h]
  | written t cls table i bytes h =>
    rcases writeRecord_cases h with ⟨-, n, r, -, -, -, rfl⟩ | ⟨-, n, r, -, rfl⟩ | ⟨-, r, -, rfl⟩ | ⟨-, j, g, rfl⟩ |
      ⟨-, j, r, rfl⟩ | ⟨-, j, g, rfl⟩
    · exact .refl
    · exact .single (rewritten_move _ _)
    all_goals exact .refl
  | zeroed => exact .refl
  | scene t h hmove => rw [h]
  | cueAdded => exact .refl
  | cuesRemoved t h => rw [h]
  | strobed t h => rw [h]

theorem judge_store_run (s : State) (c : Control) : StoreRun s.store (s.judge c).1.store :=
  (judge_run s c).keeps (P := fun u => StoreRun s.store u.store) (fun _ _ hm h => h.trans (workMove_store_run hm)) .refl

theorem takeCommand_store_run (s : State) (c : Control) : StoreRun s.store (s.takeCommand c).store := by
  rcases takeCommand_cases s c with ⟨-, h⟩ | ⟨-, h⟩ <;> rw [h]
  · exact .single (.tileReset _ _)
  · rw [(offerReply_keeps _ _).2.2.2.1]
    exact judge_store_run s c

theorem markStore_store (s : State) (h : HandOver) : (s.markStore h).store = s.store.atMark h s.src.states := by
  simp only [State.markStore]
  split <;> simp

theorem frameMark_store_run (s : State) (o : MarkOrder) : StoreRun s.store (s.frameMark o).store :=
  frameMark_induct (P := fun u => StoreRun s.store u.store) s o (fun u h => by simpa using h) (fun u h => by simpa using h)
    (fun u h => by simpa using h) (fun u h => by simpa using h) (fun u g h => by simpa using h)
    (fun u hand h => by rw [markStore_store]; exact h.trans (atMark_run _ _ _)) .refl

theorem expireCue_store_run (s : State) : StoreRun s.store s.expireCue.store := by
  simp only [State.expireCue]
  split
  · exact .refl
  · refine Relation.ReflTransGen.trans (StoreRun.of_eq ?_) (handSwitches_store_run _ _)
    split <;> simp

theorem stepTour_store_run (s : State) (k : Fin 32) : StoreRun s.store (s.stepTour k).store := by
  simp only [State.stepTour]
  split
  · exact handSwitches_store_run { s with scene := s.scene.tourStep k s.timer.wallN } _
  · exact .refl

theorem lineMark_store_run (s : State) : StoreRun s.store s.lineMark.store := by
  unfold State.lineMark
  rw [(lineStart_keeps _).2.2.2.2.1]
  exact frameMark_store_run { s with freeIdx := s.freeIdx + 1 } _

theorem lineStart_store_run {s t : State} (h : exec .lineStart s = .next t) : StoreRun s.store t.store := by
  rcases exec_lineStart_cases s with ⟨-, he⟩ | ⟨-, he⟩ <;> rw [he] at h <;> cases h
  · exact lineMark_store_run s
  · exact .of_eq (panelLine_keeps s).2.2.2.2.1

/-- Every command is a run of the Store Manager's moves. -/
theorem exec_store_run {c : Instr} {s t : State} (h : exec c s = .next t) : StoreRun s.store t.store := by
  rcases exec_cases h with ⟨⟨-, -, ⟨hstore, -⟩, -⟩, -⟩ | ⟨cell, placeFirst, rfl⟩ | ⟨o, rfl⟩ | rfl | rfl | rfl | ⟨k, rfl⟩ |
    ⟨n, rfl⟩ | ⟨n, rfl⟩
  · exact .of_eq hstore
  · rcases exec_cellReceived_cases h with ⟨-, -, -, ⟨hstore, -⟩, -⟩ | ⟨f, ⟨rfl, -⟩ | rfl | rfl⟩
    · exact .of_eq hstore
    · exact stripArrival_store_run (s.mapRing f) _
    · exact .of_eq (by simp)
    · exact takeCommand_store_run (s.mapRing f) _
  · rcases exec_frameMark_cases o s with ⟨-, he⟩ | ⟨-, he⟩ <;> rw [he] at h
    · cases h
      exact frameMark_store_run s o
    · exact lineStart_store_run h
  · exact lineStart_store_run h
  · cases h
    exact .single (.powerOn _)
  · cases h
    exact whenRunning_of (P := fun u => StoreRun s.store u.store) .refl (expireCue_store_run s)
  · cases h
    exact whenRunning_of (P := fun u => StoreRun s.store u.store) .refl (stepTour_store_run s k)
  · cases h
    exact whenRunning_of (P := fun u => StoreRun s.store u.store) .refl (.of_eq (by simp))
  · cases h
    exact whenRunning_of (P := fun u => StoreRun s.store u.store) .refl (.of_eq (by simp))

theorem step_store_run {s t : State} (h : step s = .next t) : StoreRun s.store t.store := by
  rcases step_cases h with rfl | ⟨c, rest, h⟩
  · exact .refl
  · exact exec_store_run (s := { s with pending := rest }) h

end Sys2Proof.Machine
end

section
/-! The invariants of the Store Manager: the roles of a window's buffers by the number in each role (R78), the pages of
the free list and the buffers (R77), and the size of each buffer (R44). -/

namespace Sys2Proof.Machine

/-! ### Counting buffers by role (R78) -/

/-- Counts add up as the yes/no values at each entry do. -/
theorem countP_add_congr {α : Type} {p q r s : α → Bool} {l : List α}
    (h : ∀ a ∈ l, (p a).toNat + (q a).toNat = (r a).toNat + (s a).toNat) :
    l.countP p + l.countP q = l.countP r + l.countP s := by
  induction l with
  | nil => rfl
  | cons a l ih =>
    have ha := h a (by simp)
    have hl := ih fun b hb => h b (by simp [hb])
    simp only [List.countP_cons]
    cases hp : p a <;> cases hq : q a <;> cases hr : r a <;> cases hs : s a <;> simp_all <;> omega

/-- R78, on the number of buffers SHOWING, FILLING, READY and SPARE. -/
def RolesFit (showing filling ready spare : Nat) : Prop :=
  showing + filling + ready + spare ≤ 3 ∧ (1 ≤ showing + filling + ready + spare → showing = 1) ∧ filling ≤ 1 ∧ ready ≤ 1 ∧
  (showing + filling + ready + spare = 2 → spare = 0) ∧ (showing + filling + ready + spare = 3 → filling = 1)

def Role.isShowing (r : Role) : Bool := decide (r = .showing)
def Role.isReady (r : Role) : Bool := decide (r = .ready)
def Role.isSpare (r : Role) : Bool := decide (r = .spare)

/-- The buffers whose roles meet `p`, counted. -/
def tally (p : Role → Bool) (l : List Buffer) : Nat := l.countP fun b => p b.role

theorem tally_cons (p : Role → Bool) (b : Buffer) (l : List Buffer) : tally p (b :: l) = tally p l + (p b.role).toNat := by
  unfold tally
  rw [List.countP_cons]
  cases p b.role <;> rfl

theorem tally_total (l : List Buffer) :
    tally Role.isShowing l + tally Role.isFilling l + tally Role.isReady l + tally Role.isSpare l = l.length := by
  induction l with
  | nil => rfl
  | cons b l ih =>
    have hone : b.role.isShowing.toNat + b.role.isFilling.toNat + b.role.isReady.toNat + b.role.isSpare.toNat = 1 := by
      cases b.role <;> rfl
    simp only [tally_cons, List.length_cons]
    omega

/-- The roles of a list of buffers, as R78 has them. -/
def RolesLegalIn (l : List Buffer) : Prop :=
  RolesFit (tally Role.isShowing l) (tally Role.isFilling l) (tally Role.isReady l) (tally Role.isSpare l)

theorem rolesLegal_iff (w : WinStore) : w.rolesLegal ↔ RolesLegalIn w.bufs := by
  have htotal := tally_total w.bufs
  have hne : w.bufs ≠ [] ↔ 1 ≤ w.bufs.length := List.length_pos_iff.symm
  unfold WinStore.rolesLegal RolesLegalIn RolesFit
  rw [htotal, hne]
  rfl

theorem rolesLegalIn_nil : RolesLegalIn [] := by simp [RolesLegalIn, RolesFit, tally]

/-- The tallies of relabelled buffers follow from what the relabelling does to each role. -/
theorem tally_map_add {p q r s : Role → Bool} {g : Buffer → Buffer} {f : Role → Role} {l : List Buffer}
    (hg : ∀ b, (g b).role = f b.role) (h : ∀ x, (p (f x)).toNat + (q x).toNat = (r x).toNat + (s x).toNat) :
    tally p (l.map g) + tally q l = tally r l + tally s l := by
  induction l with
  | nil => rfl
  | cons b l ih =>
    have hb := h b.role
    simp only [List.map_cons, tally_cons, hg]
    omega

theorem tally_map {p q : Role → Bool} {g : Buffer → Buffer} {f : Role → Role} {l : List Buffer}
    (hg : ∀ b, (g b).role = f b.role) (h : ∀ x, p (f x) = q x) : tally p (l.map g) = tally q l := by
  induction l with
  | nil => rfl
  | cons b l ih => simp only [List.map_cons, tally_cons, hg, h, ih]

theorem tally_map_none {p : Role → Bool} {g : Buffer → Buffer} {f : Role → Role} {l : List Buffer}
    (hg : ∀ b, (g b).role = f b.role) (h : ∀ x, p (f x) = false) : tally p (l.map g) = 0 := by
  induction l with
  | nil => rfl
  | cons b l ih => simp only [List.map_cons, tally_cons, hg, h, ih, Bool.toNat_false]

/-- A relabelling that keeps the kind of every role keeps the roles legal. -/
theorem rolesLegalIn_map {g : Buffer → Buffer} {f : Role → Role} {l : List Buffer} (hg : ∀ b, (g b).role = f b.role)
    (h : ∀ x, (f x).isShowing = x.isShowing ∧ (f x).isFilling = x.isFilling ∧ (f x).isReady = x.isReady ∧
      (f x).isSpare = x.isSpare) (hl : RolesLegalIn l) : RolesLegalIn (l.map g) := by
  unfold RolesLegalIn
  rw [tally_map hg fun x => (h x).1, tally_map hg fun x => (h x).2.1, tally_map hg fun x => (h x).2.2.1,
    tally_map hg fun x => (h x).2.2.2]
  exact hl

/-- R78: two is the one number of held buffers that matters to `spareRole`. -/
theorem Role.rearmed_of_ne {held : Nat} (h : held ≠ 2) : Role.rearmed held = Role.rearmed 3 := by
  funext r
  cases r <;> simp [Role.rearmed, spareRole, h]

theorem Role.swapped_of_ne {held : Nat} (h : held ≠ 2) : Role.swapped held = Role.swapped 3 := by
  funext r
  cases r <;> simp [Role.swapped, spareRole, h]

theorem spareRole_isShowing (held : Nat) : (spareRole held).isShowing = false := by
  unfold spareRole
  split <;> rfl

theorem spareRole_isReady (held : Nat) : (spareRole held).isReady = false := by
  unfold spareRole
  split <;> rfl

theorem Role.rearmed_isShowing (held : Nat) (r : Role) : (r.rearmed held).isShowing = r.isShowing := by
  cases r
  case ready => exact spareRole_isShowing held
  all_goals rfl

theorem Role.rearmed_isReady (held : Nat) (r : Role) : (r.rearmed held).isReady = false := by
  cases r
  case ready => exact spareRole_isReady held
  all_goals rfl

theorem Role.swapped_isShowing (held : Nat) (r : Role) : (r.swapped held).isShowing = r.isReady := by
  cases r
  case showing => exact spareRole_isShowing held
  all_goals rfl

theorem Role.swapped_isReady (held : Nat) (r : Role) : (r.swapped held).isReady = false := by
  cases r
  case showing => exact spareRole_isReady held
  all_goals rfl

/-- The buffers with every role passed through `f`. -/
def relabel (f : Role → Role) (l : List Buffer) : List Buffer := l.map fun b => { b with role := f b.role }

theorem tally_relabel {p q : Role → Bool} (f : Role → Role) (l : List Buffer) (h : ∀ x, p (f x) = q x) :
    tally p (relabel f l) = tally q l := tally_map (fun _ => rfl) h

theorem tally_relabel_none {p : Role → Bool} (f : Role → Role) (l : List Buffer) (h : ∀ x, p (f x) = false) :
    tally p (relabel f l) = 0 := tally_map_none (fun _ => rfl) h

theorem tally_relabel_total (f : Role → Role) (l : List Buffer) :
    tally Role.isShowing (relabel f l) + tally Role.isFilling (relabel f l) + tally Role.isReady (relabel f l) +
      tally Role.isSpare (relabel f l) = l.length := by
  rw [tally_total, relabel, List.length_map]

theorem rolesLegalIn_rearmed {l : List Buffer} (hl : RolesLegalIn l) : RolesLegalIn (relabel (.rearmed l.length) l) := by
  have htotal := tally_total l
  have htotal' := tally_relabel_total (.rearmed l.length) l
  have hshowing := tally_relabel (p := Role.isShowing) (q := Role.isShowing) (.rearmed l.length) l (Role.rearmed_isShowing _)
  have hready := tally_relabel_none (p := Role.isReady) (.rearmed l.length) l (Role.rearmed_isReady _)
  have hspare := tally_relabel (p := Role.isSpare) (q := Role.isSpare) (.rearmed 2) l fun x => by cases x <;> rfl
  have hfilling := tally_relabel (p := Role.isFilling) (q := Role.isFilling) (.rearmed 3) l fun x => by cases x <;> rfl
  unfold RolesLegalIn RolesFit at hl ⊢
  by_cases h2 : l.length = 2
  · rw [h2] at hshowing hready htotal' ⊢
    omega
  · rw [Role.rearmed_of_ne h2] at hshowing hready htotal' ⊢
    omega

theorem rolesLegalIn_swapped {l : List Buffer} (hready : 1 ≤ tally Role.isReady l) (hl : RolesLegalIn l) :
    RolesLegalIn (relabel (.swapped l.length) l) := by
  have htotal := tally_total l
  have htotal' := tally_relabel_total (.swapped l.length) l
  have hshowing := tally_relabel (p := Role.isShowing) (q := Role.isReady) (.swapped l.length) l (Role.swapped_isShowing _)
  have hready' := tally_relabel_none (p := Role.isReady) (.swapped l.length) l (Role.swapped_isReady _)
  have hspare := tally_relabel (p := Role.isSpare) (q := Role.isSpare) (.swapped 2) l fun x => by cases x <;> rfl
  have hfilling := tally_relabel (p := Role.isFilling) (q := Role.isFilling) (.swapped 3) l fun x => by cases x <;> rfl
  unfold RolesLegalIn RolesFit at hl ⊢
  by_cases h2 : l.length = 2
  · rw [h2] at hshowing hready' htotal' ⊢
    omega
  · rw [Role.swapped_of_ne h2] at hshowing hready' htotal' ⊢
    omega

/-! ### Completed and rejected frames (R80 to R82) -/

theorem Role.isWriting_iff {tag : Byte} {r : Role} : r.isWriting tag = true ↔ r = .filling (.writing tag) := decide_eq_true_iff

/-- A buffer that receives a frame is a FILLING one. -/
theorem tally_isWriting_le (tag : Byte) (l : List Buffer) : tally (Role.isWriting tag) l ≤ tally Role.isFilling l := by
  refine List.countP_mono_left fun b _ h => ?_
  rw [Role.isWriting_iff.mp h]
  rfl

theorem holds_iff (w : WinStore) (p : Role → Bool) : w.holds p = true ↔ 1 ≤ tally p w.bufs := by
  unfold WinStore.holds tally
  rw [List.any_eq_true, Nat.succ_le_iff, List.countP_pos_iff]

/-- R80: what a completion makes of a role in a window of three. -/
def Role.completed (tag : Byte) (hadReady : Bool) : Role → Role
  | .filling (.writing t) => if t = tag then .ready else .filling (.writing t)
  | .ready => .filling .armed
  | .spare => if hadReady then .spare else .filling .armed
  | r => r

theorem Buffer.completed_role (tag : Byte) (hadReady : Bool) (b : Buffer) :
    (b.completed tag hadReady).role = b.role.completed tag hadReady := by
  rcases b with ⟨pages, role, mark⟩
  rcases role with (_ | t) | _ | _ | _
  case filling.writing => by_cases h : t = tag <;> simp [Buffer.completed, Role.completed, Role.isWriting, h]
  all_goals simp [Buffer.completed, Role.completed, Role.isWriting]
  case spare => cases hadReady <;> rfl

theorem rolesLegalIn_completedThree {l : List Buffer} {tag : Byte} (h3 : l.length = 3)
    (hw : 1 ≤ tally (Role.isWriting tag) l) {hadReady : Bool} (hready : hadReady = true ↔ 1 ≤ tally Role.isReady l)
    (hl : RolesLegalIn l) : RolesLegalIn (l.map (Buffer.completed tag hadReady)) := by
  have hg := Buffer.completed_role tag hadReady
  have htotal := tally_total l
  have hle := tally_isWriting_le tag l
  have htotal' := tally_total (l.map (Buffer.completed tag hadReady))
  have hshowing : tally Role.isShowing (l.map (Buffer.completed tag hadReady)) = tally Role.isShowing l :=
    tally_map hg fun x => by
      rcases x with (_ | t) | _ | _ | _
      case filling.writing => by_cases h : t = tag <;> simp [Role.completed, Role.isShowing, h]
      case spare => cases hadReady <;> rfl
      all_goals rfl
  have hready' : tally Role.isReady (l.map (Buffer.completed tag hadReady)) = tally (Role.isWriting tag) l :=
    tally_map hg fun x => by
      rcases x with (_ | t) | _ | _ | _
      case filling.writing => by_cases h : t = tag <;> simp [Role.completed, Role.isReady, Role.isWriting, h]
      case spare => cases hadReady <;> rfl
      all_goals rfl
  have hspare : tally Role.isSpare (l.map (Buffer.completed tag hadReady)) =
      if hadReady then tally Role.isSpare l else 0 := by
    cases hadReady
    case false =>
      refine tally_map_none hg fun x => ?_
      rcases x with (_ | t) | _ | _ | _
      case filling.writing => by_cases h : t = tag <;> simp [Role.completed, Role.isSpare, h]
      all_goals rfl
    case true =>
      refine tally_map hg fun x => ?_
      rcases x with (_ | t) | _ | _ | _
      case filling.writing => by_cases h : t = tag <;> simp [Role.completed, Role.isSpare, h]
      all_goals rfl
  rw [List.length_map] at htotal'
  unfold RolesLegalIn RolesFit at hl ⊢
  cases hadReady <;> simp at hready hspare <;> omega

theorem rolesLegalIn_completedTwo {l : List Buffer} {tag : Byte} (h2 : l.length = 2)
    (hw : 1 ≤ tally (Role.isWriting tag) l) (hl : RolesLegalIn l) :
    RolesLegalIn (l.map fun b => if b.role.isWriting tag then { b with role := .ready, mark := true } else b) := by
  generalize hg : (fun b : Buffer => if b.role.isWriting tag then { b with role := .ready, mark := true } else b) = g
  have hg : ∀ b, (g b).role = if b.role.isWriting tag then .ready else b.role := fun b => by
    rw [← hg]
    split <;> simp [*]
  have htotal := tally_total l
  have hle := tally_isWriting_le tag l
  have htotal' := tally_total (l.map g)
  have hshowing : tally Role.isShowing (l.map g) = tally Role.isShowing l :=
    tally_map (f := fun x => if x.isWriting tag then .ready else x) hg fun x => by
      split
      next h => rw [Role.isWriting_iff.mp h]; rfl
      next => rfl
  have hspare : tally Role.isSpare (l.map g) = tally Role.isSpare l :=
    tally_map (f := fun x => if x.isWriting tag then .ready else x) hg fun x => by
      split
      next h => rw [Role.isWriting_iff.mp h]; rfl
      next => rfl
  have hready : tally Role.isReady (l.map g) + tally (fun _ => false) l = tally Role.isReady l + tally (Role.isWriting tag) l :=
    tally_map_add (f := fun x => if x.isWriting tag then .ready else x) hg fun x => by
      split
      next h => rw [Role.isWriting_iff.mp h]; simp [Role.isReady, Role.isWriting]
      next h => simp [h]
  rw [List.length_map] at htotal'
  unfold RolesLegalIn RolesFit at hl ⊢
  omega

/-! ### What a move does to one window -/

theorem rearm_bufs (w : WinStore) : w.rearm.bufs = relabel (.rearmed w.bufs.length) w.bufs := rfl

theorem switched_bufs (w : WinStore) (feed : Option (Fin 32)) : (w.switched feed).bufs = w.rearm.bufs := by
  unfold WinStore.switched
  split
  next h => rw [rearm_bufs, h, relabel, List.map_nil]
  next => rfl

/-- R78: every move of a window keeps its roles legal. -/
theorem WinMove.rolesLegal {w v : WinStore} (h : WinMove w v) (hw : w.rolesLegal) : v.rolesLegal := by
  rw [rolesLegal_iff] at hw ⊢
  cases h with
  | kept => exact hw
  | started s tag mode =>
    unfold WinStore.onStart
    split
    · exact rolesLegalIn_map (f := .started tag) (fun _ => rfl) (fun x => by rcases x with (_ | t) | _ | _ | _ <;> exact ⟨rfl, rfl, rfl, rfl⟩) hw
    · exact hw
  | completed s tag mode =>
    unfold WinStore.onComplete
    split
    · split
      next h =>
        refine rolesLegalIn_completedThree h.1 ((holds_iff _ _).mp h.2) ?_ hw
        exact holds_iff w Role.isReady
      · split
        next h => exact rolesLegalIn_completedTwo h.1 ((holds_iff _ _).mp h.2) hw
        · split
          · exact rolesLegalIn_map (f := id) (fun b => by split <;> rfl) (fun _ => ⟨rfl, rfl, rfl, rfl⟩) hw
          · exact hw
    · exact hw
  | rejected s tag =>
    unfold WinStore.onReject
    split
    · refine rolesLegalIn_map (f := fun x => if x.isWriting tag then .filling .armed else x) (fun b => by split <;> rfl) (fun x => ?_) hw
      split
      next h => rw [Role.isWriting_iff.mp h]; exact ⟨rfl, rfl, rfl, rfl⟩
      next => exact ⟨rfl, rfl, rfl, rfl⟩
    · exact hw
  | rearmed => exact rolesLegalIn_rearmed hw
  | switched feed =>
    rw [switched_bufs]
    exact rolesLegalIn_rearmed hw
  | marked mode live =>
    unfold WinStore.atMark
    split
    · split
      next h => exact rolesLegalIn_swapped ((holds_iff w Role.isReady).mp h) hw
      · split <;> exact hw
    · exact hw

theorem Buffer.completed_pages (tag : Byte) (hadReady : Bool) (b : Buffer) : (b.completed tag hadReady).pages = b.pages := by
  unfold Buffer.completed
  repeat' split
  all_goals rfl

theorem map_pages {g : Buffer → Buffer} (h : ∀ b, (g b).pages = b.pages) (l : List Buffer) :
    (l.map g).map (·.pages) = l.map (·.pages) := by
  rw [List.map_map]
  exact List.map_congr_left fun b _ => h b

theorem relabel_pages (f : Role → Role) (l : List Buffer) : (relabel f l).map (·.pages) = l.map (·.pages) :=
  map_pages (g := fun b => { b with role := f b.role }) (fun _ => rfl) l

/-- R77, R78: a move of a window leaves every buffer its pages, and the rectangle they were sized for. -/
theorem WinMove.pages {w v : WinStore} (h : WinMove w v) :
    v.bufs.map (·.pages) = w.bufs.map (·.pages) ∧ v.sized = w.sized := by
  cases h with
  | kept => exact ⟨rfl, rfl⟩
  | started s tag mode =>
    unfold WinStore.onStart
    split
    · exact ⟨relabel_pages _ _, rfl⟩
    · exact ⟨rfl, rfl⟩
  | completed s tag mode =>
    unfold WinStore.onComplete
    split
    · split
      · exact ⟨map_pages (fun b => b.completed_pages tag _) _, rfl⟩
      · split
        · exact ⟨map_pages (fun b => by split <;> rfl) _, rfl⟩
        · split
          · exact ⟨map_pages (fun b => by split <;> rfl) _, rfl⟩
          · exact ⟨rfl, rfl⟩
    · exact ⟨rfl, rfl⟩
  | rejected s tag =>
    unfold WinStore.onReject
    split
    · exact ⟨map_pages (fun b => by split <;> rfl) _, rfl⟩
    · exact ⟨rfl, rfl⟩
  | rearmed => exact ⟨relabel_pages _ _, rfl⟩
  | switched feed =>
    rw [switched_bufs]
    refine ⟨relabel_pages _ _, ?_⟩
    unfold WinStore.switched
    split <;> rfl
  | marked mode live =>
    unfold WinStore.atMark
    split
    · split
      · exact ⟨relabel_pages _ _, rfl⟩
      · split <;> exact ⟨rfl, rfl⟩
    · exact ⟨rfl, rfl⟩

/-- R93: the counters of a window stay in 16 bits. -/
def WinStore.countsFit (w : WinStore) : Prop := w.shown ≤ 65535 ∧ w.dropped ≤ 65535 ∧ w.repeated ≤ 65535

theorem wrapInc_le (n : Nat) : wrapInc n ≤ 65535 := by
  unfold wrapInc
  omega

theorem WinMove.countsFit {w v : WinStore} (h : WinMove w v) (hw : w.countsFit) : v.countsFit := by
  obtain ⟨hshown, hdropped, hrepeated⟩ := hw
  cases h with
  | kept => exact ⟨hshown, hdropped, hrepeated⟩
  | started s tag mode =>
    unfold WinStore.onStart
    split <;> exact ⟨hshown, hdropped, hrepeated⟩
  | completed s tag mode =>
    unfold WinStore.onComplete
    split
    · split
      · refine ⟨hshown, ?_, hrepeated⟩
        dsimp only
        split
        · exact wrapInc_le _
        · exact hdropped
      · split
        · exact ⟨hshown, hdropped, hrepeated⟩
        · split
          · exact ⟨wrapInc_le _, hdropped, hrepeated⟩
          · exact ⟨hshown, hdropped, hrepeated⟩
    · exact ⟨hshown, hdropped, hrepeated⟩
  | rejected s tag =>
    unfold WinStore.onReject
    split <;> exact ⟨hshown, hdropped, hrepeated⟩
  | rearmed => exact ⟨hshown, hdropped, hrepeated⟩
  | switched feed =>
    unfold WinStore.switched
    split <;> exact ⟨hshown, hdropped, hrepeated⟩
  | marked mode live =>
    unfold WinStore.atMark
    split
    · split
      · exact ⟨wrapInc_le _, hdropped, hrepeated⟩
      · split
        · exact ⟨hshown, hdropped, wrapInc_le _⟩
        · exact ⟨hshown, hdropped, hrepeated⟩
    · exact ⟨hshown, hdropped, hrepeated⟩

end Sys2Proof.Machine
end

section
/-! Allocation (R88 to R92): what freeing and giving buffers does to the pages, the roles and the sizes; and that every step
keeps the frame stores as R77, R78 and R44 have them. -/

namespace Sys2Proof.Machine

theorem foldl_keeps {α β : Type} {P : β → Prop} {f : β → α → β} (hstep : ∀ b a, P b → P (f b a)) (l : List α) {b : β}
    (hb : P b) : P (l.foldl f b) := by
  induction l generalizing b with
  | nil => exact hb
  | cons a l ih => exact ih (hstep b a hb)

/-! ### Freeing (R89) -/

/-- R89: what freeing window n, or keeping it, leaves of its store. -/
def HandOver.left (h : HandOver) (n : Fin 32) (w : WinStore) : WinStore :=
  if w.bufs ≠ [] ∧ h.keeps n w = false then { w with bufs := [], feeding := none } else w

/-- R89: the pages that window n gives back, in their order. -/
def HandOver.freed (h : HandOver) (n : Fin 32) (w : WinStore) : List Page :=
  if w.bufs ≠ [] ∧ h.keeps n w = false then w.listed.flatMap (·.pages) else []

theorem foldl_freeWindow (h : HandOver) (l : List (Fin 32)) (hl : l.Nodup) (m : StoreManager) :
    l.foldl (fun acc n => if (acc.wins.get n).bufs ≠ [] ∧ h.keeps n (acc.wins.get n) = false then acc.freeWindow n else acc) m =
      { m with
        free := m.free ++ l.flatMap fun n => h.freed n (m.wins.get n)
        wins := Table.ofFn fun n => if n ∈ l then h.left n (m.wins.get n) else m.wins.get n } := by
  induction l generalizing m with
  | nil =>
    have hwins : (Table.ofFn fun n => m.wins.get n) = m.wins := Table.ext_get fun n => by simp
    simp [hwins]
  | cons n l ih =>
    obtain ⟨hn, hl⟩ := List.nodup_cons.mp hl
    have hstep : (if (m.wins.get n).bufs ≠ [] ∧ h.keeps n (m.wins.get n) = false then m.freeWindow n else m) =
        { m with free := m.free ++ h.freed n (m.wins.get n), wins := m.wins.set n (h.left n (m.wins.get n)) } := by
      unfold HandOver.freed HandOver.left
      split
      · rfl
      · simp
    have hothers : (l.flatMap fun k => h.freed k ((m.wins.set n (h.left n (m.wins.get n))).get k)) =
        l.flatMap fun k => h.freed k (m.wins.get k) :=
      List.flatMap_congr fun k hk => by
        rw [Table.get_set_of_ne]
        rintro rfl
        exact hn hk
    rw [List.foldl_cons, hstep, ih hl]
    simp only [List.flatMap_cons, List.append_assoc, hothers, StoreManager.mk.injEq, true_and, and_true]
    refine Table.ext_get fun k => ?_
    simp only [Table.get_ofFn, Table.get_set, List.mem_cons]
    by_cases hk : k = n
    · subst hk
      simp [hn]
    · simp [hk]

/-- R89: what freeing the windows that do not keep their buffers comes to. -/
theorem freeLosers_eq (m : StoreManager) (h : HandOver) : m.freeLosers h =
    { m with
      free := m.free ++ (indices 32).flatMap fun n => h.freed n (m.wins.get n)
      wins := Table.ofFn fun n => h.left n (m.wins.get n) } := by
  unfold StoreManager.freeLosers
  rw [foldl_freeWindow h _ (indices_nodup 32)]
  simp only [mem_indices, if_true]

/-! ### Pages (R77) -/

/-- The pages of a window's buffers. -/
def WinStore.pages (w : WinStore) : List Page := w.bufs.flatMap (·.pages)

theorem WinStore.pages_eq (w : WinStore) : w.pages = (w.bufs.map (·.pages)).flatten := List.flatMap_def

/-- R77, on the Store Manager alone. -/
def StoreManager.PagesCovered (m : StoreManager) : Prop := List.Perm (m.free ++ m.heldPages) (indices 8192)

/-- Changing what one index contributes exchanges it in the whole. -/
theorem flatMap_indices_perm {α : Type} {f g : Fin 32 → List α} {n : Fin 32} (h : ∀ k, k ≠ n → g k = f k) :
    List.Perm ((indices 32).flatMap g ++ f n) ((indices 32).flatMap f ++ g n) := by
  have hsplit : List.Perm (indices 32) (n :: (indices 32).erase n) := List.perm_cons_erase (mem_indices n)
  have hrest : ((indices 32).erase n).flatMap g = ((indices 32).erase n).flatMap f :=
    List.flatMap_congr fun k hk => h k ((indices_nodup 32).mem_erase_iff.mp hk).1
  refine ((hsplit.flatMap_right g).append_right (f n)).trans ?_
  refine List.Perm.trans ?_ ((hsplit.flatMap_right f).symm.append_right (g n))
  rw [List.flatMap_cons, List.flatMap_cons, hrest, List.append_assoc, List.append_assoc]
  exact List.perm_append_comm.trans ((List.perm_append_comm.append_right _).trans (by rw [List.append_assoc]))

theorem heldPages_set (m : StoreManager) (n : Fin 32) (w : WinStore) :
    List.Perm (({ m with wins := m.wins.set n w } : StoreManager).heldPages ++ (m.wins.get n).pages) (m.heldPages ++ w.pages) := by
  have h := flatMap_indices_perm (f := fun k => (m.wins.get k).pages) (g := fun k => ((m.wins.set n w).get k).pages) (n := n)
    fun k hk => by rw [Table.get_set_of_ne _ _ hk]
  rw [Table.get_set_self] at h
  exact h

/-- R93: the buffers in their order are the buffers held. -/
theorem listed_perm (w : WinStore) : List.Perm w.listed w.bufs := by
  unfold WinStore.listed
  induction w.bufs with
  | nil => rfl
  | cons b l ih =>
    cases hb : b.role <;> simp only [List.filter_cons, hb, Role.isFilling, reduceCtorEq, if_false, if_true,
      decide_true, decide_false, Bool.false_eq_true]
    case showing => exact ih.cons b
    case filling => exact List.perm_middle.trans (ih.cons b)
    case ready =>
      rw [← List.append_assoc] at ih ⊢
      exact List.perm_middle.trans (ih.cons b)
    case spare =>
      rw [← List.append_assoc, ← List.append_assoc] at ih ⊢
      exact List.perm_middle.trans (ih.cons b)

theorem freeWindow_covered {m : StoreManager} (n : Fin 32) (hm : m.PagesCovered) : (m.freeWindow n).PagesCovered := by
  unfold StoreManager.PagesCovered at hm ⊢
  refine List.Perm.trans ?_ hm
  have hset : List.Perm (_ ++ (m.wins.get n).pages) (m.heldPages ++ []) :=
    heldPages_set m n { m.wins.get n with bufs := [], feeding := none }
  rw [List.append_nil] at hset
  have hlisted : List.Perm ((m.wins.get n).listed.flatMap (·.pages)) (m.wins.get n).pages :=
    (listed_perm _).flatMap_right _
  show List.Perm ((m.free ++ (m.wins.get n).listed.flatMap (·.pages)) ++ _) _
  rw [List.append_assoc]
  exact ((hlisted.append_right _).trans (List.perm_append_comm.trans hset)).append_left _

theorem give_covered {m : StoreManager} (h : HandOver) (n : Fin 32) (v : VisRect) (hm : m.PagesCovered) :
    (m.give h n v).PagesCovered := by
  unfold StoreManager.PagesCovered at hm ⊢
  refine List.Perm.trans ?_ hm
  generalize hw : ({ m.wins.get n with
      bufs := (m.wins.get n).bufs ++ [⟨m.free.take (pagesPerBuffer v), givenRole (m.wins.get n), false⟩]
      feeding := if decide ((m.wins.get n).bufs.length = 0) then h.feed n else (m.wins.get n).feeding
      sized := if decide ((m.wins.get n).bufs.length = 0) then v else (m.wins.get n).sized } : WinStore) = w
  have hpages : w.pages = (m.wins.get n).pages ++ m.free.take (pagesPerBuffer v) := by
    rw [← hw]
    simp [WinStore.pages]
  have hset := heldPages_set m n w
  rw [hpages, ← List.append_assoc] at hset
  have hheld : List.Perm (({ m with wins := m.wins.set n w } : StoreManager).heldPages)
      (m.heldPages ++ m.free.take (pagesPerBuffer v)) := by
    refine (List.perm_append_right_iff (m.wins.get n).pages).mp (hset.trans ?_)
    rw [List.append_assoc, List.append_assoc]
    exact List.perm_append_comm.append_left _
  have hnew : (m.give h n v).heldPages = ({ m with wins := m.wins.set n w } : StoreManager).heldPages := by
    rw [← hw]
    rfl
  rw [hnew]
  show List.Perm (m.free.drop (pagesPerBuffer v) ++ _) _
  refine (hheld.append_left _).trans (List.perm_append_comm.trans ?_)
  rw [List.append_assoc, List.take_append_drop]
  exact List.perm_append_comm

/-! ### Serving (R90) -/

/-- R90: a pass leaves a window's turn without effect, or gives it one buffer of the rectangle it needs. -/
theorem serve_cases (m : StoreManager) (h : HandOver) (held : Nat) (n : Fin 32) :
    m.serve h held n = m ∨
    ∃ v, h.storeRect n = some v ∧ (m.wins.get n).bufs.length = held ∧ pagesPerBuffer v ≤ m.free.length ∧
      m.serve h held n = m.give h n v := by
  unfold StoreManager.serve
  split
  next v hv =>
    split
    next hs => exact .inr ⟨v, hv, hs.1, hs.2, rfl⟩
    next => exact .inl rfl
  next => exact .inl rfl

/-- What freeing a window and giving a buffer keep, an allocation keeps, from the state with moved windows re-armed on. -/
theorem allocate_keeps {P Q : StoreManager → Prop} {m : StoreManager} {h : HandOver} (hfree : P (m.rearmMoved h) → Q ((m.rearmMoved h).freeLosers h))
    (hgive : ∀ k n v held, held < 3 → h.storeRect n = some v → (k.wins.get n).bufs.length = held →
      pagesPerBuffer v ≤ k.free.length → Q k → Q (k.give h n v))
    (hdegraded : ∀ k d, Q k → Q { k with degraded := d }) (hm : P (m.rearmMoved h)) : Q (m.allocate h) := by
  have hpass : ∀ held k, held < 3 → Q k → Q (k.servePass h held) := fun held k hheld hk =>
    foldl_keeps (P := Q) (f := fun acc n => acc.serve h held n) (fun b n hb => by
      rcases serve_cases b h held n with he | ⟨v, hv, hlen, hroom, he⟩ <;> rw [he]
      · exact hb
      · exact hgive b n v held hheld hv hlen hroom hb) h.activeList hk
  exact hdegraded _ _ (hpass 2 _ (by decide) (hpass 1 _ (by decide) (hpass 0 _ (by decide) (hfree hm))))

theorem mapWins_heldPages {m : StoreManager} {f : Fin 32 → WinStore → WinStore} (h : ∀ n w, WinMove w (f n w)) :
    (m.mapWins f).heldPages = m.heldPages := by
  unfold StoreManager.heldPages
  refine List.flatMap_congr fun n _ => ?_
  rw [StoreManager.mapWins_get]
  show WinStore.pages _ = WinStore.pages _
  rw [WinStore.pages_eq, WinStore.pages_eq, (h n (m.wins.get n)).pages.1]

theorem pagesCovered_of_empty {m : StoreManager} (hfree : m.free = indices 8192) (hwins : ∀ n, (m.wins.get n).bufs = []) :
    m.PagesCovered := by
  have hheld : m.heldPages = [] := by
    unfold StoreManager.heldPages
    rw [List.flatMap_eq_nil_iff]
    intro n _
    rw [hwins n, List.flatMap_nil]
  unfold StoreManager.PagesCovered
  rw [hheld, hfree, List.append_nil]

/-- R77: every move keeps each page on the free list or in one buffer. -/
theorem StoreMove.pagesCovered {m k : StoreManager} (h : StoreMove m k) (hm : m.PagesCovered) : k.PagesCovered := by
  cases h with
  | mapped f hf =>
    unfold StoreManager.PagesCovered
    rw [mapWins_heldPages hf]
    exact hm
  | intake src s st =>
    unfold StoreManager.PagesCovered StoreManager.heldPages
    rw [(StoreManager.intake_keeps m src s st).1, (StoreManager.intake_keeps m src s st).2.1]
    exact hm
  | allocated h =>
    refine allocate_keeps (P := StoreManager.PagesCovered) (fun hk => ?_) (fun k n v _ _ _ _ _ => give_covered h n v)
      (fun k d hk => hk) ?_
    · exact foldl_keeps (P := StoreManager.PagesCovered) (fun b n hb => by
        split
        · exact freeWindow_covered n hb
        · exact hb) _ hk
    · unfold StoreManager.PagesCovered StoreManager.rearmMoved
      rw [mapWins_heldPages fun _ w => .of_ite (.rearmed w)]
      exact hm
  | published h => exact hm
  | tileReset g =>
    refine pagesCovered_of_empty (m := m.tileReset g) ?_ fun n => ?_
    · simp only [StoreManager.tileReset]
    · simp only [StoreManager.tileReset, Table.get_fill, WinStore.empty]
  | powerOn =>
    refine pagesCovered_of_empty (m := StoreManager.powerOn) ?_ fun n => ?_
    · simp only [StoreManager.powerOn]
    · simp only [StoreManager.powerOn, Table.get_fill, WinStore.empty]

/-! ### Roles and sizes (R78, R44) -/

/-- R44, R78: every buffer of a window has the pages of the rectangle it was sized for. -/
def WinStore.bufsSized (w : WinStore) : Prop := ∀ b ∈ w.bufs, b.pages.length = pagesPerBuffer w.sized

/-- R78, R44, on the Store Manager alone. -/
def StoreManager.BuffersLegal (m : StoreManager) : Prop := ∀ n, (m.wins.get n).rolesLegal ∧ (m.wins.get n).bufsSized

/-- R88, R90: the buffers are legal, and a window that holds some needs the rectangle they were sized for. -/
def StoreManager.BuffersServed (h : HandOver) (m : StoreManager) : Prop :=
  m.BuffersLegal ∧ ∀ n, (m.wins.get n).bufs ≠ [] → h.storeRect n = some (m.wins.get n).sized

theorem WinMove.bufsSized {w v : WinStore} (h : WinMove w v) (hw : w.bufsSized) : v.bufsSized := by
  obtain ⟨hpages, hsized⟩ := h.pages
  intro b hb
  obtain ⟨c, hc, hcb⟩ := List.mem_map.mp (hpages ▸ List.mem_map_of_mem hb)
  rw [← hcb, hsized]
  exact hw c hc

theorem WinStore.rolesLegal_of_nil {w : WinStore} (h : w.bufs = []) : w.rolesLegal := by
  rw [rolesLegal_iff, h]
  exact rolesLegalIn_nil

theorem WinStore.bufsSized_of_nil {w : WinStore} (h : w.bufs = []) : w.bufsSized := by
  unfold WinStore.bufsSized
  rw [h]
  exact fun b hb => absurd hb List.not_mem_nil

theorem mapped_buffersLegal {m : StoreManager} {f : Fin 32 → WinStore → WinStore} (h : ∀ n w, WinMove w (f n w))
    (hm : m.BuffersLegal) : (m.mapWins f).BuffersLegal := fun n => by
  rw [StoreManager.mapWins_get]
  exact ⟨(h n _).rolesLegal (hm n).1, (h n _).bufsSized (hm n).2⟩

/-- R88, R89: the windows left with buffers are those that keep them, for the rectangle they need. -/
theorem freeLosers_served {m : StoreManager} (h : HandOver) (hm : m.BuffersLegal) : (m.freeLosers h).BuffersServed h := by
  rw [freeLosers_eq]
  refine ⟨fun n => ?_, fun n => ?_⟩
  all_goals
    simp only [Table.get_ofFn, HandOver.left]
    split
  · exact ⟨WinStore.rolesLegal_of_nil rfl, WinStore.bufsSized_of_nil rfl⟩
  · exact hm n
  · exact fun hb => absurd rfl hb
  next hkeep =>
    intro hb
    have hk : h.keeps n (m.wins.get n) = true := by simpa [hb] using hkeep
    simp only [HandOver.keeps, Bool.and_eq_true, decide_eq_true_eq] at hk
    exact hk.1.1.1.1

theorem tally_append (p : Role → Bool) (l : List Buffer) (b : Buffer) : tally p (l ++ [b]) = tally p l + (p b.role).toNat := by
  unfold tally
  rw [List.countP_append, List.countP_singleton]
  cases p b.role <;> rfl

/-- R90: the role a window is given next keeps its roles legal. -/
theorem givenRole_legal {w : WinStore} (hw : RolesLegalIn w.bufs) (hlen : w.bufs.length < 3) (pages : List Page) (mark : Bool) :
    RolesLegalIn (w.bufs ++ [⟨pages, givenRole w, mark⟩]) := by
  have htotal := tally_total w.bufs
  have hfilling := holds_iff w Role.isFilling
  unfold RolesLegalIn RolesFit at hw ⊢
  simp only [tally_append, givenRole]
  split
  · simp only [Role.isShowing, Role.isFilling, Role.isReady, Role.isSpare, reduceCtorEq, decide_true, decide_false, Bool.toNat_true, Bool.toNat_false]
    omega
  · split
    · simp only [Role.isShowing, Role.isFilling, Role.isReady, Role.isSpare, reduceCtorEq, decide_false, Bool.toNat_true, Bool.toNat_false]
      omega
    · split
      next hf =>
        have := hfilling.mp hf
        simp only [Role.isShowing, Role.isFilling, Role.isReady, Role.isSpare, reduceCtorEq, decide_true, decide_false, Bool.toNat_true, Bool.toNat_false]
        omega
      next hf =>
        have := mt hfilling.mpr hf
        simp only [Role.isShowing, Role.isFilling, Role.isReady, Role.isSpare, reduceCtorEq, decide_false, Bool.toNat_true, Bool.toNat_false]
        omega

theorem give_served {m : StoreManager} {h : HandOver} {n : Fin 32} {v : VisRect} (hv : h.storeRect n = some v)
    (hlen : (m.wins.get n).bufs.length < 3) (hroom : pagesPerBuffer v ≤ m.free.length) (hm : m.BuffersServed h) :
    (m.give h n v).BuffersServed h := by
  obtain ⟨hlegal, hneeds⟩ := hm
  have hsized : (if decide ((m.wins.get n).bufs.length = 0) then v else (m.wins.get n).sized) = v := by
    split
    · rfl
    next h0 =>
      have h0 : (m.wins.get n).bufs ≠ [] := by simpa using h0
      exact Option.some.inj ((hneeds n h0).symm.trans hv)
  unfold StoreManager.BuffersServed StoreManager.BuffersLegal StoreManager.give
  simp only [hsized]
  refine ⟨fun k => ?_, fun k => ?_⟩
  all_goals
    rw [Table.get_set]
    split
  next hk =>
    subst hk
    refine ⟨(rolesLegal_iff _).mpr (givenRole_legal ((rolesLegal_iff _).mp (hlegal k).1) hlen _ _), fun b hb => ?_⟩
    rcases List.mem_append.mp hb with hb | hb
    · have hne : (m.wins.get k).bufs ≠ [] := List.ne_nil_of_mem hb
      rw [(hlegal k).2 b hb, Option.some.inj ((hneeds k hne).symm.trans hv)]
    · rw [List.mem_singleton.mp hb]
      exact List.length_take_of_le hroom
  next => exact hlegal k
  next hk => exact fun _ => hk ▸ hv
  next => exact hneeds k

/-- R78, R44: every move keeps the roles legal and the buffers of their size. -/
theorem StoreMove.buffersLegal {m k : StoreManager} (h : StoreMove m k) (hm : m.BuffersLegal) : k.BuffersLegal := by
  cases h with
  | mapped f hf => exact mapped_buffersLegal hf hm
  | intake src s st =>
    intro n
    rw [(StoreManager.intake_keeps m src s st).2.1]
    exact hm n
  | allocated h =>
    refine (allocate_keeps (P := StoreManager.BuffersLegal) (Q := StoreManager.BuffersServed h) (freeLosers_served h)
      (fun k n v held hheld hv hlen hroom hk => give_served hv (by omega) hroom hk) (fun k d hk => hk) ?_).1
    exact mapped_buffersLegal (fun _ w => .of_ite (.rearmed w)) hm
  | published h => exact hm
  | tileReset g =>
    intro n
    simp only [StoreManager.tileReset, Table.get_fill]
    exact ⟨WinStore.rolesLegal_of_nil rfl, WinStore.bufsSized_of_nil rfl⟩
  | powerOn =>
    intro n
    simp only [StoreManager.powerOn, Table.get_fill]
    exact ⟨WinStore.rolesLegal_of_nil rfl, WinStore.bufsSized_of_nil rfl⟩

/-! ### The memory's form -/

theorem intake_wf {m : StoreManager} (src : SourceRec) (s : Fin 32) (st : Strip) (hm : m.mem.wf) : (m.intake src s st).mem.wf :=
  foldl_keeps (P := fun k : StoreManager => k.mem.wf) (f := fun acc n => acc.intakeWindow src s st n) (fun k n hk => by
    unfold StoreManager.intakeWindow
    split
    · exact Memory.wf_writePixels _ _ _ hk
    · exact hk) _ hm

/-- Log 8: every move keeps the memory list in its form. -/
theorem StoreMove.memory_wf {m k : StoreManager} (h : StoreMove m k) (hm : m.mem.wf) : k.mem.wf := by
  cases h with
  | mapped f hf => exact hm
  | intake src s st => exact intake_wf src s st hm
  | allocated h =>
    refine allocate_keeps (P := fun k => k.mem.wf) (Q := fun k => k.mem.wf) (fun hk => ?_) (fun k n v _ _ _ _ _ hk => ?_)
      (fun k d hk => hk) hm
    · rw [freeLosers_eq]
      exact hk
    · exact Memory.wf_fillPages _ _ _ hk
  | published h => exact hm
  | tileReset g =>
    simp only [StoreManager.tileReset]
    exact hm
  | powerOn =>
    simp only [StoreManager.powerOn]
    exact Memory.wf_nil

/-- Settles O60: every step is a run of the Store Manager's moves, and each of them keeps the pages, the buffers and the form
of the memory. -/
theorem storesStayLegal : Obligations.StoresStayLegal := by
  unfold Obligations.StoresStayLegal
  refine fun s t h => ⟨fun hs => ?_, fun hroles hsized => ?_, fun hs => ?_⟩
  · exact (step_store_run h).keeps (P := StoreManager.PagesCovered) (fun _ _ => StoreMove.pagesCovered) hs
  · have hlegal : t.store.BuffersLegal :=
      (step_store_run h).keeps (fun _ _ => StoreMove.buffersLegal) fun n => ⟨hroles n, hsized n⟩
    exact ⟨fun n => (hlegal n).1, fun n => (hlegal n).2⟩
  · exact (step_store_run h).keeps (P := fun m => m.mem.wf) (fun _ _ => StoreMove.memory_wf) hs

end Sys2Proof.Machine
end

section
/-! The ranges of the Ring Port and the address (R143, R148, R149, R152, R162): what keeps the Ring Port but for the status
slot, and that every step keeps the ranges. -/

namespace Sys2Proof.Machine

/-! ### Commands that leave the Ring Port but for the status slot -/

/-- The Ring Port but for the status slot, the address and the originator table are as before. -/
def OuterKept (s t : State) : Prop :=
  RingKeptButSlot s t ∧ t.cmd.address = s.cmd.address ∧ t.cmd.origins = s.cmd.origins

theorem OuterKept.of_eq {s t : State} (hring : t.ring = s.ring) (hcmd : t.cmd = s.cmd) : OuterKept s t := by
  refine ⟨?_, by rw [hcmd], by rw [hcmd]⟩
  unfold RingKeptButSlot
  rw [hring]

theorem OuterKept.refl (s : State) : OuterKept s s := .of_eq rfl rfl

theorem OuterLatched.kept {s t : State} (h : OuterLatched s t) : OuterKept s t := ⟨h.1, h.2.1, h.2.2.1⟩

theorem OuterKept.trans {s t u : State} (h : OuterKept s t) (k : OuterKept t u) : OuterKept s u := by
  obtain ⟨hring, haddress, horigins⟩ := h
  obtain ⟨kring, kaddress, korigins⟩ := k
  unfold RingKeptButSlot at hring kring
  refine ⟨?_, kaddress.trans haddress, korigins.trans horigins⟩
  unfold RingKeptButSlot
  rw [kring, hring]

theorem OuterKept.latch (k : EventKind) (s : State) : OuterKept s (latch k s) := (OuterLatched.latch k s).kept

theorem OuterKept.latch_of_eq {s t : State} (k : EventKind) (hring : t.ring = s.ring) (hcmd : t.cmd = s.cmd) :
    OuterKept s (Machine.latch k t) := (OuterKept.of_eq hring hcmd).trans (.latch k t)

theorem OuterKept.of_ite {c : Prop} [Decidable c] {s t u : State} (ht : OuterKept s t) (hu : OuterKept s u) :
    OuterKept s (if c then t else u) := by
  split
  · exact ht
  · exact hu

theorem sourceLive_outer (s : State) (n : Fin 32) : OuterKept s (s.sourceLive n) := by
  simp only [State.sourceLive]
  split <;> first | exact .latch_of_eq _ rfl rfl | exact .of_eq rfl rfl

theorem endFrame_outer (s : State) (n : Fin 32) : OuterKept s (s.endFrame n) := by
  simp only [State.endFrame]
  split
  · exact OuterKept.trans (.of_eq rfl rfl) (sourceLive_outer _ n)
  · exact .of_eq rfl rfl

theorem acceptStrip_outer (s : State) (n : Fin 32) (st : Strip) : OuterKept s (s.acceptStrip n st) := by
  simp only [State.acceptStrip]
  split
  · exact OuterKept.trans (.of_eq rfl rfl) (endFrame_outer _ n)
  · exact .of_eq rfl rfl

theorem startFrame_outer (s : State) (n : Fin 32) (st : Strip) : OuterKept s (s.startFrame n st) := by
  simp only [State.startFrame]
  have hended : OuterKept s (if (s.src.states.get n).frameOpen then s.endFrame n else s) :=
    .of_ite (endFrame_outer s n) (.refl s)
  generalize (if (s.src.states.get n).frameOpen then s.endFrame n else s) = u at hended ⊢
  exact hended.trans (OuterKept.trans (.of_eq rfl rfl) (acceptStrip_outer (u.openFrame n st.tag) n st))

theorem stripArrival_outer (s : State) (st : Strip) : OuterKept s (s.stripArrival st) := by
  unfold State.stripArrival
  split
  · exact .refl s
  · exact .of_eq rfl rfl
  · exact .of_ite (startFrame_outer _ _ _) (.of_ite (.of_ite (acceptStrip_outer _ _ _) (.of_eq rfl rfl)) (.of_eq rfl rfl))

theorem syncArrival_outer (s : State) (number flags : BitVec 32) : OuterKept s (s.syncArrival number flags) := by
  simp only [State.syncArrival, State.setTrim]
  have hnoted : OuterKept s (if number = s.timer.wallN + 1 then { s with timer := s.timer.noteSync number flags }
      else latch .slip { s with timer := s.timer.noteSync number flags }) :=
    .of_ite (.of_eq rfl rfl) (.latch_of_eq _ rfl rfl)
  generalize (if number = s.timer.wallN + 1 then { s with timer := s.timer.noteSync number flags }
      else latch .slip { s with timer := s.timer.noteSync number flags }) = u at hnoted ⊢
  exact (hnoted.trans (arriveLock_rule u).2.1.kept).trans (.of_eq rfl rfl)

theorem stallSource_outer (s : State) (n : Fin 32) : OuterKept s (s.stallSource n) :=
  .of_ite (.latch_of_eq _ rfl rfl) (.refl s)

theorem loseSource_outer (s : State) (n : Fin 32) : OuterKept s (s.loseSource n) :=
  .of_ite (.latch_of_eq _ rfl rfl) (.refl s)

theorem markSource_outer (s : State) (n : Fin 32) : OuterKept s (s.markSource n) := by
  have hcounted : OuterKept s (s.setTrack n (s.src.states.get n).counted) := .of_eq rfl rfl
  exact (hcounted.trans (stallSource_outer _ n)).trans (loseSource_outer _ n)

theorem markSources_outer (s : State) : OuterKept s s.markSources :=
  foldl_keeps (P := OuterKept s) (f := fun acc n => acc.markSource n) (fun u n hu => hu.trans (markSource_outer u n)) _
    (.refl s)

theorem statusInterval_outer (s : State) : OuterKept s s.statusInterval := by
  unfold State.statusInterval
  exact .of_ite ⟨rfl, rfl, rfl⟩ (.refl s)

theorem markInterval_outer (s : State) : OuterKept s s.markInterval :=
  OuterKept.trans (t := { s with cmd := { s.cmd with intervalCount := s.cmd.intervalCount + 1 } }) ⟨rfl, rfl, rfl⟩
    (statusInterval_outer _)

theorem markCues_outer (s : State) : OuterKept s s.markCues.1 :=
  .of_ite (.latch_of_eq _ rfl rfl) (.of_eq rfl rfl)

theorem markCommit_outer (s : State) : OuterKept s s.markCommit.1 := by
  unfold State.markCommit
  split
  · exact .latch_of_eq _ rfl rfl
  · exact .refl s

theorem markTriggers_outer (s : State) (l : List (Fin 32)) : OuterKept s (s.markTriggers l).1 := .of_eq rfl rfl

theorem markScene_outer (s : State) (g : Bool) : OuterKept s (s.markScene g).1 := by
  simp only [State.markScene]
  have hcued := markCues_outer s
  generalize s.markCues = cued at hcued ⊢
  have hacted := hcued.trans (markTriggers_outer cued.1 cued.2)
  generalize cued.1.markTriggers cued.2 = acted at hacted ⊢
  have hdone := hacted.trans (markCommit_outer acted.1)
  generalize acted.1.markCommit = done at hdone ⊢
  exact hdone.trans (.of_eq rfl rfl)

theorem markStore_outer (s : State) (h : HandOver) : OuterKept s (s.markStore h) := by
  simp only [State.markStore]
  exact .of_ite (.latch_of_eq _ rfl rfl) (.of_eq rfl rfl)

/-- The frame mark leaves the Ring Port but for the status slot, the address and the originator table. -/
theorem frameMark_outer (s : State) (o : MarkOrder) : OuterKept s (s.frameMark o) :=
  frameMark_induct (P := OuterKept s) s o (fun _ h => h.trans (.of_eq rfl rfl)) (fun u h => h.trans (markInterval_outer u))
    (fun u h => h.trans (markTimer_outer u).kept) (fun u h => h.trans (markSources_outer u))
    (fun u g h => h.trans (markScene_outer u g)) (fun u _ h => h.trans (markStore_outer u _)) (.refl s)

theorem handSwitches_outer (s : State) (l : List (Fin 32)) : OuterKept s (s.handSwitches l) := .of_eq rfl rfl

theorem expireCue_outer (s : State) : OuterKept s s.expireCue := by
  simp only [State.expireCue]
  split
  · exact .refl s
  next c _ =>
    generalize CueWork.expireOne _ _ = k
    have hlate : OuterKept s (if isLate s.timer.wallN c then
        latch .cueLate { s with scene := k.work.scene, cues := { s.cues with queue := k.queue } }
      else { s with scene := k.work.scene, cues := { s.cues with queue := k.queue } }) :=
      .of_ite (.latch_of_eq _ rfl rfl) (.of_eq rfl rfl)
    exact hlate.trans (handSwitches_outer _ _)

theorem stepTour_outer (s : State) (k : Fin 32) : OuterKept s (s.stepTour k) := by
  simp only [State.stepTour]
  exact .of_ite (.of_eq rfl rfl) (.refl s)

theorem lineMark_outer (s : State) : OuterKept s s.lineMark := by
  unfold State.lineMark
  obtain ⟨hring, hcmd, -⟩ := lineStart_keeps (State.frameMark { s with freeIdx := s.freeIdx + 1 } (Config.lineMarkOrder s.freeIdx))
  exact OuterKept.trans (t := State.frameMark { s with freeIdx := s.freeIdx + 1 } (Config.lineMarkOrder s.freeIdx))
    (frameMark_outer { s with freeIdx := s.freeIdx + 1 } _) (.of_eq hring hcmd)

theorem lineStart_outer {s t : State} (h : exec .lineStart s = .next t) : OuterKept s t := by
  rcases exec_lineStart_cases s with ⟨-, he⟩ | ⟨-, he⟩ <;> rw [he] at h <;> cases h
  · exact lineMark_outer s
  · exact .of_eq (panelLine_keeps s).1 (panelLine_keeps s).2.1

/-! ### The ranges -/

/-- R143: the run count lies in its range for the link state. -/
def RunFits (l : LinkState) (run : Nat) : Prop :=
  match l with
  | .down => run = 0
  | .aligning => run ≤ 7
  | .up => run ≤ 3

/-- R148, R149, R152: the reply queue, the life count and the link counters. -/
def Ring.countsFit (r : Ring) : Prop :=
  r.replies.length ≤ 8 ∧ r.life ≤ 255 ∧ r.cellsReceived ≤ 65535 ∧ r.checkErrors ≤ 65535 ∧ r.alignLosses ≤ 65535 ∧
  r.controlTaken ≤ 65535 ∧ r.repliesDropped ≤ 65535

theorem ringInRange_iff (s : State) :
    RingInRange s ↔ RunFits s.ring.link s.ring.runCount ∧ s.ring.countsFit ∧ s.cmd.address ≤ 100 := by
  unfold RingInRange Ring.countsFit
  constructor
  · rintro ⟨h1, h2, h3, h4, h5, h6, h7, h8, h9⟩
    exact ⟨h1, ⟨h2, h3, h4, h5, h6, h7, h8⟩, h9⟩
  · rintro ⟨h1, ⟨h2, h3, h4, h5, h6, h7, h8⟩, h9⟩
    exact ⟨h1, h2, h3, h4, h5, h6, h7, h8, h9⟩

theorem runFits_zero (l : LinkState) : RunFits l 0 := by
  cases l
  · rfl
  · exact Nat.zero_le _
  · exact Nat.zero_le _

theorem OuterKept.inRange {s t : State} (h : OuterKept s t) (hs : RingInRange s) : RingInRange t := by
  obtain ⟨hring, haddress, -⟩ := h
  rw [ringInRange_iff] at hs ⊢
  unfold RingKeptButSlot at hring
  rw [hring, haddress]
  exact hs

theorem satInc16_le (n : Nat) : satInc16 n ≤ 65535 := Nat.min_le_left _ _

theorem Ring.countsFit.givePlace {r : Ring} (h : r.countsFit) : r.givePlace.countsFit := by
  obtain ⟨hreplies, hlife, hcounters⟩ := h
  rcases r.givePlace_cases with ⟨-, he⟩ | ⟨_, _, _, he⟩ | ⟨_, _, _, _, he⟩ | ⟨_, _, _, _, _, he⟩ | ⟨_, _, _, _, _, _, hr, he⟩ <;>
    rw [he]
  · exact ⟨hreplies, hlife, hcounters⟩
  · exact ⟨hreplies, hlife, hcounters⟩
  · exact ⟨hreplies, hlife, hcounters⟩
  · exact ⟨hreplies, Nat.le_of_lt_succ (Nat.mod_lt _ (by decide)), hcounters⟩
  · rw [hr, List.length_cons] at hreplies
    exact ⟨Nat.le_of_succ_le hreplies, hlife, hcounters⟩

theorem Ring.countsFit.openPlace {r : Ring} (idle : Cell) (h : r.countsFit) : (r.openPlace idle).countsFit :=
  Ring.countsFit.givePlace h

theorem Ring.countsFit.openPlaceFor {r : Ring} (idle : Cell) (placeFirst : Bool) (h : r.countsFit) :
    (r.openPlaceFor idle placeFirst).countsFit := by
  unfold Ring.openPlaceFor
  split
  · exact (h.openPlace idle).givePlace
  · exact h.openPlace idle

theorem Ring.countsFit.forward {r : Ring} (c : Cell) (h : r.countsFit) : (r.forward c).countsFit := Ring.countsFit.givePlace h

theorem Ring.countsFit.countCell {r : Ring} (good : Bool) (h : r.countsFit) : (r.countCell good).countsFit := by
  obtain ⟨hreplies, hlife, -, herrors, hlosses, htaken, hdropped⟩ := h
  refine ⟨hreplies, hlife, satInc16_le _, ?_, hlosses, htaken, hdropped⟩
  unfold Ring.countCell
  dsimp only
  split
  · exact herrors
  · exact satInc16_le _

theorem Ring.countsFit.countControl {r : Ring} (h : r.countsFit) : r.countControl.countsFit := by
  obtain ⟨hreplies, hlife, hcells, herrors, hlosses, -, hdropped⟩ := h
  exact ⟨hreplies, hlife, hcells, herrors, hlosses, satInc16_le _, hdropped⟩

/-- The link state and the run count are the same after a place is opened, and given or not. -/
theorem Ring.openPlaceFor_link (r : Ring) (idle : Cell) (placeFirst : Bool) :
    (r.openPlaceFor idle placeFirst).link = r.link ∧ (r.openPlaceFor idle placeFirst).runCount = r.runCount := by
  unfold Ring.openPlaceFor Ring.openPlace
  split <;> simp

theorem Ring.forward_link (r : Ring) (c : Cell) : (r.forward c).link = r.link ∧ (r.forward c).runCount = r.runCount := by
  simp [Ring.forward, Ring.send]

/-! ### The commands of the ring -/

theorem changeLink_inRange {s : State} (l : LinkState) (hs : s.ring.countsFit) (haddress : s.cmd.address ≤ 100) :
    RingInRange (s.changeLink l) := by
  obtain ⟨hreplies, hlife, hcells, herrors, hlosses, htaken, hdropped⟩ := hs
  have hcmd : (s.changeLink l).cmd.address = s.cmd.address := by simp [State.changeLink]
  rw [ringInRange_iff, changeLink_ring, hcmd]
  refine ⟨runFits_zero l, ⟨hreplies, hlife, hcells, herrors, ?_, htaken, hdropped⟩, haddress⟩
  dsimp only
  split
  · exact Nat.min_le_left _ _
  · exact hlosses

/-- R143: the run count of good cells makes the link UP before it leaves its range. -/
theorem linkAligned_inRange {s : State} (hrun : s.ring.link = .aligning → s.ring.runCount ≤ 8)
    (hothers : s.ring.link ≠ .aligning → RunFits s.ring.link s.ring.runCount) (hs : s.ring.countsFit)
    (haddress : s.cmd.address ≤ 100) : RingInRange s.linkAligned := by
  unfold State.linkAligned
  split
  · exact changeLink_inRange _ hs haddress
  next h =>
    refine (ringInRange_iff s).mpr ⟨?_, hs, haddress⟩
    by_cases hl : s.ring.link = .aligning
    · have := hrun hl
      have h8 : ¬8 ≤ s.ring.runCount := fun h8 => h ⟨hl, h8⟩
      rw [hl]
      show s.ring.runCount ≤ 7
      omega
    · exact hothers hl

/-- R143: the run count of bad cells makes the link ALIGNING before it leaves its range. -/
theorem alignmentLost_inRange {s : State} (hrun : s.ring.link = .up → s.ring.runCount ≤ 4)
    (hothers : s.ring.link ≠ .up → RunFits s.ring.link s.ring.runCount) (hs : s.ring.countsFit)
    (haddress : s.cmd.address ≤ 100) : RingInRange s.alignmentLost := by
  unfold State.alignmentLost
  split
  · exact changeLink_inRange _ hs haddress
  next h =>
    refine (ringInRange_iff s).mpr ⟨?_, hs, haddress⟩
    by_cases hl : s.ring.link = .up
    · have := hrun hl
      have h4 : ¬4 ≤ s.ring.runCount := fun h4 => h ⟨hl, h4⟩
      rw [hl]
      show s.ring.runCount ≤ 3
      omega
    · exact hothers hl

theorem offerReply_inRange {s : State} (body : List Byte) (hs : RingInRange s) : RingInRange (offerReply body s) := by
  have hs' := (ringInRange_iff s).mp hs
  obtain ⟨hrun, ⟨hreplies, hlife, hcells, herrors, hlosses, htaken, hdropped⟩, haddress⟩ := hs'
  rcases offerReply_cases body s with ⟨hroom, he⟩ | ⟨hfull, he⟩ <;> rw [he]
  · refine (ringInRange_iff _).mpr ⟨hrun, ⟨?_, hlife, hcells, herrors, hlosses, htaken, hdropped⟩, haddress⟩
    rw [List.length_append, List.length_singleton]
    exact hroom
  · refine (OuterKept.latch _ _).inRange ?_
    exact (ringInRange_iff _).mpr ⟨hrun, ⟨hreplies, hlife, hcells, herrors, hlosses, htaken, satInc16_le _⟩, haddress⟩

theorem zeroed_le {mask bit n k : Nat} (h : n ≤ k) : zeroed mask bit n ≤ k := by
  unfold zeroed
  split
  · exact Nat.zero_le _
  · exact h

theorem workMove_inRange {s t : State} (h : WorkMove s t) (hs : RingInRange s) : RingInRange t := by
  obtain ⟨hrun, hcounts, haddress⟩ := (ringInRange_iff s).mp hs
  cases h with
  | outer t h ha =>
    rw [ringInRange_iff, h]
    exact ⟨hrun, hcounts, ha haddress⟩
  | written t cls table i bytes h =>
    rcases writeRecord_cases h with ⟨-, n, r, -, -, -, rfl⟩ | ⟨-, n, r, -, rfl⟩ | ⟨-, r, -, rfl⟩ | ⟨-, j, g, rfl⟩ |
      ⟨-, j, r, rfl⟩ | ⟨-, j, g, rfl⟩
    all_goals exact hs
  | zeroed arg =>
    obtain ⟨hreplies, hlife, hcells, herrors, hlosses, htaken, hdropped⟩ := hcounts
    exact (ringInRange_iff _).mpr ⟨hrun, ⟨hreplies, hlife, zeroed_le hcells, zeroed_le herrors, zeroed_le hlosses,
      zeroed_le htaken, zeroed_le hdropped⟩, haddress⟩
  | scene t h hmove => rw [h]; exact hs
  | cueAdded => exact hs
  | cuesRemoved t h => rw [h]; exact hs
  | strobed t h => rw [h]; exact hs

theorem takeCommand_inRange {s : State} (c : Control) (hs : RingInRange s) : RingInRange (s.takeCommand c) := by
  rcases takeCommand_cases s c with ⟨-, h⟩ | ⟨-, h⟩ <;> rw [h]
  · obtain ⟨hrun, ⟨-, hlife, -⟩, haddress⟩ := (ringInRange_iff s).mp hs
    exact (ringInRange_iff _).mpr ⟨hrun, ⟨Nat.zero_le _, hlife, Nat.zero_le _, Nat.zero_le _, Nat.zero_le _, Nat.zero_le _,
      Nat.zero_le _⟩, haddress⟩
  · exact offerReply_inRange _ ((judge_run s c).keeps (fun _ _ => workMove_inRange) hs)

theorem mapRing_inRange {s : State} {f : Ring → Ring} (hlink : (f s.ring).link = s.ring.link)
    (hrun : (f s.ring).runCount = s.ring.runCount ∨ (f s.ring).runCount = 0) (hf : (f s.ring).countsFit)
    (hs : RingInRange s) : RingInRange (s.mapRing f) := by
  obtain ⟨hfits, -, haddress⟩ := (ringInRange_iff s).mp hs
  refine (ringInRange_iff _).mpr ⟨?_, hf, haddress⟩
  show RunFits (f s.ring).link (f s.ring).runCount
  rw [hlink]
  rcases hrun with h | h <;> rw [h]
  · exact hfits
  · exact runFits_zero _

theorem receiveGood_inRange {s : State} (c : Cell) (placeFirst : Bool) (hs : RingInRange s) :
    RingInRange (s.receiveGood c placeFirst) := by
  have hcounts := ((ringInRange_iff s).mp hs).2.1
  have hheard : ((s.ring.countCell true).countRun false).countsFit := hcounts.countCell true
  have hforward : RingInRange ((s.mapRing fun r => (r.countCell true).countRun false).forward c) :=
    mapRing_inRange (s := s) (f := fun r => ((r.countCell true).countRun false).forward c) (Ring.forward_link _ c).1
      (.inr (Ring.forward_link _ c).2) (hheard.forward c) hs
  simp only [State.receiveGood]
  split
  case h_1 => exact (stripArrival_outer _ _).inRange hforward
  case h_2 => exact (syncArrival_outer _ _ _).inRange hforward
  case h_3 =>
    simp only [State.receiveControl]
    split
    · exact takeCommand_inRange _ (mapRing_inRange (s := s)
        (f := fun r => (((r.countCell true).countRun false).countControl).forward _) (Ring.forward_link _ _).1
        (.inr (Ring.forward_link _ _).2) (hheard.countControl.forward _) hs)
    · split
      · exact takeCommand_inRange _ (mapRing_inRange (s := s)
          (f := fun r => (((r.countCell true).countRun false).countControl).openPlaceFor idleCell placeFirst)
          (Ring.openPlaceFor_link _ _ _).1 (.inr (Ring.openPlaceFor_link _ _ _).2) (hheard.countControl.openPlaceFor _ _) hs)
      · exact hforward
  case h_4 =>
    exact mapRing_inRange (s := s) (f := fun r => ((r.countCell true).countRun false).openPlaceFor c placeFirst)
      (Ring.openPlaceFor_link _ _ _).1 (.inr (Ring.openPlaceFor_link _ _ _).2) (hheard.openPlaceFor _ _) hs
  all_goals exact hforward

theorem receive_inRange {s : State} (c : Cell) (placeFirst : Bool) (hs : RingInRange s) : RingInRange (s.receive c placeFirst) := by
  obtain ⟨hrun, hcounts, haddress⟩ := (ringInRange_iff s).mp hs
  unfold State.receive
  split
  next => exact hs
  next hl =>
    rw [hl] at hrun
    have hrun : s.ring.runCount ≤ 7 := hrun
    have hlink := Ring.openPlaceFor_link (s.ring.countCell (cellGood c)) idleCell placeFirst
    refine linkAligned_inRange (fun _ => ?_) (fun h => absurd (hlink.1.trans hl) h)
      ((hcounts.countCell _).openPlaceFor idleCell placeFirst) haddress
    show (if _ then _ + 1 else 0) ≤ 8
    rw [hlink.2]
    split
    · exact Nat.succ_le_succ hrun
    · exact Nat.zero_le _
  next hl =>
    split
    · exact receiveGood_inRange c placeFirst hs
    · rw [hl] at hrun
      have hrun : s.ring.runCount ≤ 3 := hrun
      have hlink := Ring.openPlaceFor_link (s.ring.countCell false) idleCell placeFirst
      refine alignmentLost_inRange (fun _ => ?_) (fun h => absurd (hlink.1.trans hl) h)
        ((hcounts.countCell _).openPlaceFor idleCell placeFirst) haddress
      show _ + 1 ≤ 4
      rw [hlink.2]
      exact Nat.succ_le_succ hrun

theorem bypass_inRange {s : State} (c : Cell) (hs : RingInRange s) : RingInRange (s.bypass c) := by
  unfold State.bypass
  split
  · exact mapRing_inRange (f := (·.forward c)) (Ring.forward_link _ c).1 (.inl (Ring.forward_link _ c).2)
      (((ringInRange_iff s).mp hs).2.1.forward c) hs
  · exact hs

theorem tileResetEnd_inRange {s : State} (hs : RingInRange s) : RingInRange s.tileResetEnd := by
  obtain ⟨-, hcounts, haddress⟩ := (ringInRange_iff s).mp hs
  unfold State.tileResetEnd
  split
  · have hsettled : RingInRange s.endBypass.settleLink := by
      unfold State.settleLink
      split
      · exact (ringInRange_iff _).mpr ⟨runFits_zero _, hcounts, haddress⟩
      · exact changeLink_inRange _ hcounts haddress
    unfold State.offerResetReply
    split
    · exact hsettled
    · exact offerReply_inRange _ hsettled
  · exact hs

/-- Every command keeps the Ring Port and the address in their ranges. -/
theorem exec_ringInRange {c : Instr} {s t : State} (h : exec c s = .next t) (hs : RingInRange s) : RingInRange t := by
  obtain ⟨hrun, hcounts, haddress⟩ := (ringInRange_iff s).mp hs
  have houter : ∀ f : State → State, OuterKept s (f s) → RingInRange (s.whenRunning f) := fun f hf =>
    whenRunning_of hs (hf.inRange hs)
  cases c
  case cellReceived c placeFirst =>
    simp only [exec, execCellReceived] at h
    split at h <;> cases h
    split
    · exact receive_inRange c placeFirst hs
    · exact bypass_inRange c hs
  case bypassCell c =>
    simp only [exec, execBypassCell] at h
    split at h <;> cases h
    split
    · exact hs
    · exact bypass_inRange c hs
  case lineStart => exact (lineStart_outer h).inRange hs
  case frameMark o =>
    rcases exec_frameMark_cases o s with ⟨-, he⟩ | ⟨-, he⟩ <;> rw [he] at h
    · cases h
      exact (frameMark_outer s o).inRange hs
    · exact (lineStart_outer h).inRange hs
  all_goals cases h
  case powerOnReset =>
    exact (ringInRange_iff _).mpr ⟨rfl, ⟨Nat.zero_le _, Nat.zero_le _, Nat.zero_le _, Nat.zero_le _, Nat.zero_le _,
      Nat.zero_le _, Nat.zero_le _⟩, Nat.zero_le _⟩
  case powerOnResetEnd =>
    unfold State.powerOnResetEnd
    split
    · split
      · exact changeLink_inRange _ hcounts haddress
      · exact hs
    · exact hs
  case signalPresent =>
    simp only [State.signalPresent]
    split
    · exact changeLink_inRange _ hcounts haddress
    · exact hs
  case signalLost =>
    simp only [State.signalLost]
    split
    · exact changeLink_inRange _ hcounts haddress
    · exact hs
  case linkAligned =>
    refine whenRunning_of hs (linkAligned_inRange (fun hl => ?_) (fun _ => hrun) hcounts haddress)
    rw [hl] at hrun
    exact Nat.le_succ_of_le hrun
  case linkAlignmentLoss =>
    refine whenRunning_of hs (alignmentLost_inRange (fun hl => ?_) (fun _ => hrun) hcounts haddress)
    rw [hl] at hrun
    exact Nat.le_succ_of_le hrun
  case idleGenerate =>
    refine whenRunning_of hs ?_
    split
    · exact mapRing_inRange (f := (·.openPlace idleCell)) (by simp [Ring.openPlace]) (.inl (by simp [Ring.openPlace]))
        (hcounts.openPlace _) hs
    · exact hs
  case idlePlace => exact mapRing_inRange (f := Ring.givePlace) (by simp) (.inl (by simp)) hcounts.givePlace hs
  case tileResetEnd => exact tileResetEnd_inRange hs
  all_goals refine houter _ ?_
  case lockAcquired =>
    exact .of_ite ((lockAcquired_rule s).2.1.kept.trans (.of_eq rfl rfl)) (.refl s)
  case lockBadLimit =>
    exact .of_ite ((lockBadLimit_rule s).2.1.kept.trans (.of_eq rfl rfl)) (.refl s)
  case acquireMissedLimit => exact (acquireMissedLimit_rule s).2.1.kept
  case holdoverLimit => exact (holdoverLimit_rule s).2.1.kept
  case startTimeout => exact (startTimeout_rule s).2.1.kept
  case stallLimit n => exact stallSource_outer s n
  case lossLimit n => exact loseSource_outer s n
  case cueExpiry => exact expireCue_outer s
  case tourStep k => exact stepTour_outer s k
  case statusInterval => exact statusInterval_outer s

end Sys2Proof.Machine
end

section
/-! What a piece of work latches (R164, R165), put together step by step; and the Frame Timer's rules (R114 to R124), each
with what it leaves in the timer and what it latches. -/

namespace Sys2Proof.Machine

/-! ### Kinds in the attention set -/

theorem EventKind.priority_injective {j k : EventKind} (h : j.priority = k.priority) : j = k := by
  cases j <;> cases k <;> simp [EventKind.priority] at h ⊢

theorem kindIn_or (a b : BitVec 12) (k : EventKind) : kindIn (a ||| b) k = (kindIn a k || kindIn b k) := BitVec.getLsbD_or

theorem kindIn_bit (j k : EventKind) : kindIn j.bit k = decide (k = j) := by
  obtain ⟨hj1, hj12⟩ := j.priority_bounds
  obtain ⟨hk1, hk12⟩ := k.priority_bounds
  have hkj : k = j ↔ k.priority - 1 = j.priority - 1 :=
    ⟨fun h => by rw [h], fun h => EventKind.priority_injective (by omega)⟩
  have hone : ∀ n, (1#12).getLsbD n = decide (n = 0) := fun n => by
    rw [BitVec.getLsbD_one]
    simp
  rw [kindIn, EventKind.bit, BitVec.getLsbD_shiftLeft, hone, Bool.eq_iff_iff]
  simp only [Bool.and_eq_true, Bool.not_eq_true', decide_eq_true_eq, decide_eq_false_iff_not, hkj]
  omega

/-! ### What a piece of work latches -/

/-- On the way from s to t exactly the kinds of `L` are latched, each judged by the mask that stands with it, and a STATUS cell
is built for one of them in its mask, or for `built`. -/
structure Noted (built : Prop) (L : EventKind → BitVec 12 → Prop) (s t : State) : Prop where
  kinds : ∀ k, kindIn t.cmd.attention k = true ↔ (kindIn s.cmd.attention k = true ∨ ∃ m, L k m)
  status : (built ∨ ∃ k m, L k m ∧ kindIn m k = true) → StatusBuilt t
  slot : ¬built → (∀ k m, L k m → kindIn m k = false) → t.ring.slot = s.ring.slot

/-- No kind. -/
def NoKind : EventKind → BitVec 12 → Prop := fun _ _ => False

/-- One kind, judged by one mask, where `c` holds. -/
def OneKind (c : Prop) (k : EventKind) (m : BitVec 12) : EventKind → BitVec 12 → Prop := fun j n => c ∧ j = k ∧ n = m

theorem Noted.of_eq {s t : State} (hattention : t.cmd.attention = s.cmd.attention) (hslot : t.ring.slot = s.ring.slot) :
    Noted False NoKind s t where
  kinds k := by simp [NoKind, hattention]
  status h := by simp [NoKind] at h
  slot _ _ := hslot

theorem Noted.refl (s : State) : Noted False NoKind s s := .of_eq rfl rfl

theorem Noted.trans {b b' : Prop} {L M : EventKind → BitVec 12 → Prop} {s t u : State} (h : Noted b L s t)
    (k : Noted b' M t u) : Noted (b ∨ b') (fun j m => L j m ∨ M j m) s u where
  kinds j := by
    rw [k.kinds, h.kinds, or_assoc]
    simp only [exists_or]
  status hbuilt := by
    by_cases hk : b' ∨ ∃ j m, M j m ∧ kindIn m j = true
    · exact k.status hk
    · obtain ⟨hb', hM⟩ := not_or.mp hk
      have hslot : u.ring.slot = t.ring.slot := k.slot hb' fun j m hj => by
        cases hm : kindIn m j
        · rfl
        · exact absurd ⟨j, m, hj, hm⟩ hM
      have ht : StatusBuilt t := h.status (by
        rcases hbuilt with (hb | hb) | ⟨j, m, hL | hM', hm⟩
        · exact .inl hb
        · exact absurd hb hb'
        · exact .inr ⟨j, m, hL, hm⟩
        · exact absurd ⟨j, m, hM', hm⟩ hM)
      obtain ⟨v, hv⟩ := ht
      exact ⟨v, hslot.trans hv⟩
  slot hb hnone := by
    obtain ⟨hb, hb'⟩ := not_or.mp hb
    exact (k.slot hb' fun j m hj => hnone j m (.inr hj)).trans (h.slot hb fun j m hj => hnone j m (.inl hj))

theorem Noted.congr {b b' : Prop} {L M : EventKind → BitVec 12 → Prop} {s t : State} (h : Noted b L s t) (hb : b ↔ b')
    (hL : ∀ j m, L j m ↔ M j m) : Noted b' M s t := by
  have hLM : L = M := funext fun j => funext fun m => propext (hL j m)
  have hbb : b = b' := propext hb
  exact hLM ▸ hbb ▸ h

/-- Work that latches nothing beside work that does. -/
theorem Noted.after {b : Prop} {L : EventKind → BitVec 12 → Prop} {s t u : State} (h : Noted b L s t)
    (k : Noted False NoKind t u) : Noted b L s u :=
  (h.trans k).congr (by simp) fun j m => by simp [NoKind]

theorem Noted.before {b : Prop} {L : EventKind → BitVec 12 → Prop} {s t u : State} (h : Noted False NoKind s t)
    (k : Noted b L t u) : Noted b L s u :=
  (h.trans k).congr (by simp) fun j m => by simp [NoKind]

theorem Noted.latch (k : EventKind) (s : State) : Noted False (OneKind True k s.timer.setup.eventMask) s (latch k s) where
  kinds j := by
    rw [latch_attention, kindIn_or, kindIn_bit]
    simp [OneKind]
  status h := by
    obtain ⟨j, m, ⟨-, rfl, rfl⟩, hm⟩ := h.resolve_left id
    refine ⟨noteEvent j s, ?_⟩
    rw [latch_eq]
    exact if_pos hm
  slot _ hnone := by
    rw [latch_eq]
    exact if_neg (Bool.eq_false_iff.mp (hnone _ _ ⟨trivial, rfl, rfl⟩))

/-- A latch made after work that latches nothing, judged by the mask that stands. -/
theorem Noted.latch_of_eq {s t : State} {m : BitVec 12} (k : EventKind) (hring : t.ring = s.ring) (hcmd : t.cmd = s.cmd)
    (hmask : t.timer.setup.eventMask = m) : Noted False (OneKind True k m) s (Machine.latch k t) :=
  hmask ▸ .before (.of_eq (by rw [hcmd]) (by rw [hring])) (.latch k t)

/-- A choice of two pieces of work latches what the one taken latches. -/
theorem Noted.of_ite {c : Prop} [Decidable c] {k : EventKind} {m : BitVec 12} {s t u : State}
    (ht : c → Noted False (OneKind True k m) s t) (hu : ¬c → Noted False NoKind s u) :
    Noted False (OneKind c k m) s (if c then t else u) := by
  split
  next h => exact (ht h).congr .rfl fun j m => by simp [OneKind, h]
  next h => exact (hu h).congr .rfl fun j m => by simp [OneKind, NoKind, h]

/-! ### The lock rules (R117 to R119, R122) -/

theorem changeLock_timer (s : State) (l : LockState) : (s.changeLock l).timer = { s.timer with lock := l } := by
  simp [State.changeLock]

theorem changeLock_noted (s : State) (l : LockState) :
    Noted False (OneKind True .lockChange s.timer.setup.eventMask) s (s.changeLock l) := .latch_of_eq .lockChange rfl rfl rfl

theorem openGate_timer (s : State) : s.openGate.timer = { s.timer with gate := .opened } := by
  unfold State.openGate
  split
  · simp
  next h =>
    have : s.timer.gate = .opened := by
      cases hg : s.timer.gate
      · exact absurd hg h
      · rfl
    rw [← this]

theorem openGate_noted (s : State) :
    Noted False (OneKind (s.timer.gate = .gated) .gateOpen s.timer.setup.eventMask) s s.openGate :=
  .of_ite (fun _ => .latch_of_eq .gateOpen rfl rfl rfl) (fun _ => .refl s)

theorem enterLocked_timer (s : State) : s.enterLocked.timer = { s.timer with lock := .locked, gate := .opened } := by
  unfold State.enterLocked
  rw [openGate_timer, changeLock_timer]

/-- The kinds that entering LOCKED latches. -/
theorem enterLocked_noted (s : State) :
    Noted False (fun j m => OneKind True .lockChange s.timer.setup.eventMask j m ∨
      OneKind (s.timer.gate = .gated) .gateOpen s.timer.setup.eventMask j m) s s.enterLocked := by
  have h := (changeLock_noted s .locked).trans (openGate_noted (s.changeLock .locked))
  rw [changeLock_timer] at h
  exact h.congr (by simp) fun _ _ => .rfl

theorem lockAcquired_of_reached {s : State} (hlock : s.timer.lock = .acquire) (hgood : 8 ≤ s.timer.good) :
    s.lockAcquired = State.enterLocked { s with timer := { s.timer with good := 0, bad := 0 } } := if_pos ⟨hlock, hgood⟩

theorem lockAcquired_of_not {s : State} (h : ¬(s.timer.lock = .acquire ∧ 8 ≤ s.timer.good)) : s.lockAcquired = s := if_neg h

theorem lockBadLimit_of_reached {s : State} (hlock : s.timer.lock = .locked) (hbad : 3 ≤ s.timer.bad) :
    s.lockBadLimit = State.changeLock { s with timer := { s.timer with good := 0, bad := 0 } } .acquire := if_pos ⟨hlock, hbad⟩

theorem lockBadLimit_of_not {s : State} (h : ¬(s.timer.lock = .locked ∧ 3 ≤ s.timer.bad)) : s.lockBadLimit = s := if_neg h

theorem setTrim_timer (s : State) : s.setTrim.timer = { s.timer with
    trim := trimFor s.timer.lock s.timer.lastPhase s.timer.trim
    frameLen := s.frameLengthWith (trimFor s.timer.lock s.timer.lastPhase s.timer.trim) } := rfl

theorem setTrim_noted (s : State) : Noted False NoKind s s.setTrim := .of_eq rfl rfl

/-! ### A SYNC arrival (R115 to R118) -/

/-- R118: the lock state and its counts after an arrival with phase error `e`. -/
def lockAfter (lock : LockState) (good bad : Nat) (e : Int) : LockState × Nat × Nat :=
  match lock with
  | .free | .acquire =>
    if e.natAbs ≤ 2 then (if 7 ≤ good then (.locked, 0, 0) else (.acquire, good + 1, bad)) else (.acquire, 0, bad)
  | .locked =>
    if 8 < e.natAbs then (if 2 ≤ bad then (.acquire, 0, 0) else (.locked, good, bad + 1)) else (.locked, good, 0)
  | .holdover => if e.natAbs ≤ 2 then (.locked, good, 0) else (.acquire, 0, bad)

/-- R118, R122: the timer after an arrival judged by `lockAfter`; entering LOCKED opens the gate. -/
def Timer.judged (t : Timer) : Timer :=
  { t with
    lock := (lockAfter t.lock t.good t.bad t.lastPhase).1
    good := (lockAfter t.lock t.good t.bad t.lastPhase).2.1
    bad := (lockAfter t.lock t.good t.bad t.lastPhase).2.2
    gate := if (lockAfter t.lock t.good t.bad t.lastPhase).1 = .locked ∧ t.lock ≠ .locked then .opened else t.gate }

/-- The kinds latched where the lock state and the gate change between two timers, all judged by mask `m`. -/
def LockKinds (a b : Timer) (m : BitVec 12) : EventKind → BitVec 12 → Prop := fun j n =>
  OneKind (b.lock ≠ a.lock) .lockChange m j n ∨ OneKind (b.gate ≠ a.gate) .gateOpen m j n

/-- What a lock rule comes to: the timer it leaves, and the kinds latched. -/
def LockTo (s t : State) (b : Timer) : Prop :=
  t.timer = b ∧ Noted False (LockKinds s.timer b s.timer.setup.eventMask) s t

theorem lockTo_of_timer {s t : State} (ht : t.ring = s.ring ∧ t.cmd = s.cmd) (hlock : t.timer.lock = s.timer.lock)
    (hgate : t.timer.gate = s.timer.gate) : LockTo s t t.timer :=
  ⟨rfl, (Noted.of_eq (by rw [ht.2]) (by rw [ht.1])).congr .rfl fun j m => by
    simp [LockKinds, OneKind, NoKind, hlock, hgate]⟩

theorem lockTo_changeLock {s u : State} (hu : u.ring = s.ring ∧ u.cmd = s.cmd ∧ u.timer.setup = s.timer.setup) (l : LockState)
    (hl : l ≠ s.timer.lock) (hgate : u.timer.gate = s.timer.gate) : LockTo s (u.changeLock l) { u.timer with lock := l } := by
  refine ⟨changeLock_timer u l, ?_⟩
  have h := (Noted.of_eq (s := s) (t := u) (by rw [hu.2.1]) (by rw [hu.1])).before (changeLock_noted u l)
  rw [hu.2.2] at h
  exact h.congr .rfl fun j m => by simp [LockKinds, OneKind, hl, hgate]

theorem lockTo_enterLocked {s u : State} (hu : u.ring = s.ring ∧ u.cmd = s.cmd ∧ u.timer.setup = s.timer.setup)
    (hl : s.timer.lock ≠ .locked) (hgate : u.timer.gate = s.timer.gate) :
    LockTo s u.enterLocked { u.timer with lock := .locked, gate := .opened } := by
  refine ⟨enterLocked_timer u, ?_⟩
  have h := (Noted.of_eq (s := s) (t := u) (by rw [hu.2.1]) (by rw [hu.1])).before (enterLocked_noted u)
  rw [hu.2.2] at h
  have hg : (Gate.opened ≠ s.timer.gate) ↔ s.timer.gate = .gated := by cases s.timer.gate <;> simp
  exact h.congr .rfl fun j m => by simp [LockKinds, OneKind, hl.symm, hgate, hg]

theorem arriveAcquire_to {s : State} (hlock : s.timer.lock = .acquire) : LockTo s s.arriveAcquire s.timer.judged := by
  unfold State.arriveAcquire
  split
  next he =>
    by_cases h7 : 7 ≤ s.timer.good
    · rw [lockAcquired_of_reached (s := { s with timer := { s.timer with good := s.timer.good + 1 } }) hlock
        (Nat.succ_le_succ h7)]
      have hj : s.timer.judged = { s.timer with lock := .locked, gate := .opened, good := 0, bad := 0 } := by
        simp [Timer.judged, lockAfter, hlock, he, h7]
      rw [hj]
      exact lockTo_enterLocked ⟨rfl, rfl, rfl⟩ (by rw [hlock]; decide) rfl
    · rw [lockAcquired_of_not fun h => h7 (Nat.le_of_succ_le_succ h.2)]
      have hj : s.timer.judged = { s.timer with good := s.timer.good + 1 } := by
        simp [Timer.judged, lockAfter, hlock, he, h7]
      rw [hj]
      exact lockTo_of_timer (t := { s with timer := { s.timer with good := s.timer.good + 1 } }) ⟨rfl, rfl⟩ rfl rfl
  next he =>
    have hj : s.timer.judged = { s.timer with good := 0 } := by simp [Timer.judged, lockAfter, hlock, he]
    rw [hj]
    exact lockTo_of_timer (t := { s with timer := { s.timer with good := 0 } }) ⟨rfl, rfl⟩ rfl rfl

theorem arriveLocked_to {s : State} (hlock : s.timer.lock = .locked) : LockTo s s.arriveLocked s.timer.judged := by
  unfold State.arriveLocked
  split
  next he =>
    by_cases h2 : 2 ≤ s.timer.bad
    · rw [lockBadLimit_of_reached (s := { s with timer := { s.timer with bad := s.timer.bad + 1 } }) hlock
        (Nat.succ_le_succ h2)]
      have hj : s.timer.judged = { s.timer with lock := .acquire, good := 0, bad := 0 } := by
        simp [Timer.judged, lockAfter, hlock, he, h2]
      rw [hj]
      exact lockTo_changeLock (s := s) (u := { s with timer := { s.timer with good := 0, bad := 0 } }) ⟨rfl, rfl, rfl⟩ .acquire
        (by rw [hlock]; decide) rfl
    · rw [lockBadLimit_of_not fun h => h2 (Nat.le_of_succ_le_succ h.2)]
      have hj : s.timer.judged = { s.timer with bad := s.timer.bad + 1 } := by
        simp [Timer.judged, lockAfter, hlock, he, h2]
      rw [hj]
      exact lockTo_of_timer (t := { s with timer := { s.timer with bad := s.timer.bad + 1 } }) ⟨rfl, rfl⟩ rfl rfl
  next he =>
    have hj : s.timer.judged = { s.timer with bad := 0 } := by simp [Timer.judged, lockAfter, hlock, he]
    rw [hj]
    exact lockTo_of_timer (t := { s with timer := { s.timer with bad := 0 } }) ⟨rfl, rfl⟩ rfl rfl

theorem arriveHoldover_to {s : State} (hlock : s.timer.lock = .holdover) : LockTo s s.arriveHoldover s.timer.judged := by
  unfold State.arriveHoldover
  split
  next he =>
    have hj : s.timer.judged = { s.timer with lock := .locked, gate := .opened, bad := 0 } := by
      simp [Timer.judged, lockAfter, hlock, he]
    rw [hj]
    exact lockTo_enterLocked ⟨rfl, rfl, rfl⟩ (by rw [hlock]; decide) rfl
  next he =>
    have hj : s.timer.judged = { s.timer with lock := .acquire, good := 0 } := by
      simp [Timer.judged, lockAfter, hlock, he]
    rw [hj]
    exact lockTo_changeLock (s := s) (u := { s with timer := { s.timer with good := 0 } }) ⟨rfl, rfl, rfl⟩ .acquire
      (by rw [hlock]; decide) rfl

theorem lockAfter_ne_free (lock : LockState) (good bad : Nat) (e : Int) : (lockAfter lock good bad e).1 ≠ .free := by
  unfold lockAfter
  cases lock <;> dsimp only <;> repeat' split
  all_goals exact LockState.noConfusion

/-- R117, R118: in FREE the arrival first makes the state ACQUIRE, and is judged there. -/
theorem arriveLock_to (s : State) : LockTo s s.arriveLock s.timer.judged := by
  unfold State.arriveLock
  split
  next hlock =>
    have hacquire : (s.changeLock .acquire).timer = { s.timer with lock := .acquire } := changeLock_timer s _
    have h := arriveAcquire_to (s := s.changeLock .acquire) (by rw [hacquire])
    have hj : ({ s.timer with lock := .acquire } : Timer).judged = s.timer.judged := by
      simp [Timer.judged, lockAfter, hlock]
    unfold LockTo at h ⊢
    rw [hacquire, hj] at h
    refine ⟨h.1, ((changeLock_noted s .acquire).trans h.2).congr (by simp) fun j m => ?_⟩
    have hfree : s.timer.judged.lock ≠ .free := lockAfter_ne_free _ _ _ _
    simp only [LockKinds, OneKind, hlock, hfree, ne_eq, not_false_eq_true]
    tauto
  next hlock => exact arriveAcquire_to hlock
  next hlock => exact arriveLocked_to hlock
  next hlock => exact arriveHoldover_to hlock

/-- R115 to R118: the timer that a SYNC arrival leaves. -/
def Timer.synced (t : Timer) (number flags : BitVec 32) : Timer := (t.noteSync number flags).judged.setTrim

/-- What a SYNC arrival leaves in the timer, and the kinds it latches. -/
theorem syncArrival_to (s : State) (number flags : BitVec 32) :
    (s.syncArrival number flags).timer = s.timer.synced number flags ∧
    Noted False (fun j m => OneKind (number ≠ s.timer.wallN + 1) .slip s.timer.setup.eventMask j m ∨
      LockKinds s.timer (s.timer.synced number flags) s.timer.setup.eventMask j m) s (s.syncArrival number flags) := by
  simp only [State.syncArrival]
  have hnoted : Noted False (OneKind (number ≠ s.timer.wallN + 1) .slip s.timer.setup.eventMask) s
      (if number = s.timer.wallN + 1 then { s with timer := s.timer.noteSync number flags }
        else latch .slip { s with timer := s.timer.noteSync number flags }) := by
    split
    next h => exact Noted.congr (L := NoKind) (.of_eq rfl rfl) .rfl fun j m => by simp [OneKind, NoKind, h]
    next h =>
      exact Noted.congr (L := OneKind True .slip s.timer.setup.eventMask) (.latch_of_eq .slip rfl rfl rfl) .rfl fun j m => by
        simp only [OneKind, ne_eq, h, not_false_eq_true]
  have htimer : (if number = s.timer.wallN + 1 then { s with timer := s.timer.noteSync number flags }
      else latch .slip { s with timer := s.timer.noteSync number flags }).timer = s.timer.noteSync number flags := by
    split <;> simp
  generalize (if number = s.timer.wallN + 1 then { s with timer := s.timer.noteSync number flags }
      else latch .slip { s with timer := s.timer.noteSync number flags }) = u at hnoted htimer ⊢
  obtain ⟨hjudged, hlock⟩ := arriveLock_to u
  rw [htimer] at hjudged hlock
  refine ⟨?_, ((hnoted.trans hlock).congr (by simp) fun j m => ?_).after (setTrim_noted _)⟩
  · show u.arriveLock.timer.setTrim = _
    rw [hjudged]
    rfl
  · exact .rfl

end Sys2Proof.Machine
end

section
/-! The Frame Timer's work at the frame mark (R114, R119, R120, R122, R124), as one equation for the timer and one list of the
kinds latched. -/

namespace Sys2Proof.Machine

/-! ### The timer at a mark, part by part -/

/-- R114: the missed count after the mark. -/
def Timer.missedCount (t : Timer) : Nat := if t.syncNoted = true then 0 else min 1000 (t.missed + 1)

/-- R119: the lock state after missed-frame accounting. -/
def Timer.lockMissed (t : Timer) : LockState :=
  if t.syncNoted = true then t.lock
  else match t.lock with
    | .free => .free
    | .acquire => if 3 ≤ t.missedCount then .free else .acquire
    | .locked => .holdover
    | .holdover => if t.setup.holdoverLimit ≤ t.missedCount then .free else .holdover

/-- R119: the timer after missed-frame accounting. -/
def Timer.countMissed (t : Timer) : Timer :=
  { t with
    missed := t.missedCount
    lock := t.lockMissed
    good := if t.syncNoted = false ∧ t.lock = .acquire then 0 else t.good
    bad := if t.syncNoted = false ∧ t.lock = .locked then 0 else t.bad }

/-- R124: the setup copy in force after the mark. -/
def Timer.nextSetup (t : Timer) : Setup := t.pendSetup.getD t.setup

/-- R124: the setup latch changes V or O. -/
abbrev Timer.Retimed (t : Timer) : Prop := t.nextSetup.v ≠ t.setup.v ∨ t.nextSetup.o ≠ t.setup.o

/-- R124: the timer after the setup latch. -/
def Timer.takeSetup (t : Timer) : Timer :=
  { t with
    setup := t.nextSetup
    pendSetup := none
    lock := if t.lock = .locked ∧ t.Retimed then .acquire else t.lock
    good := if (t.lock = .locked ∨ t.lock = .acquire) ∧ t.Retimed then 0 else t.good
    bad := if t.lock = .locked ∧ t.Retimed then 0 else t.bad }

/-- R122: the start count has reached the start timeout. -/
abbrev Timer.StartsOut (t : Timer) : Prop := 1 ≤ t.setup.startTimeout ∧ t.setup.startTimeout ≤ t.startCount

/-- R122: the timer after the start count and the gate. -/
def Timer.countStart (t : Timer) : Timer :=
  { t with
    startCount := min 1000 (t.startCount + 1)
    gate := if 1 ≤ t.setup.startTimeout ∧ t.setup.startTimeout ≤ min 1000 (t.startCount + 1) then .opened else t.gate }

/-- R114: the timer after the mark. -/
def Timer.marked (t : Timer) : Timer := t.countMissed.adopt.takeSetup.countStart.beginFrame

/-! ### Missed-frame accounting -/

theorem acquireMissedLimit_eq (s : State) : s.acquireMissedLimit =
    if s.timer.lock = .acquire ∧ s.timer.syncNoted = false ∧ 3 ≤ s.timer.missed then
      State.changeLock { s with timer := { s.timer with good := 0 } } .free else s := rfl

theorem holdoverLimit_eq (s : State) : s.holdoverLimit =
    if s.timer.lock = .holdover ∧ s.timer.syncNoted = false ∧ s.timer.setup.holdoverLimit ≤ s.timer.missed then
      s.changeLock .free else s := rfl

theorem markMissed_to (s : State) : LockTo s s.markMissed s.timer.countMissed := by
  unfold State.markMissed
  split
  next hnoted =>
    have ht : s.timer.countMissed = { s.timer with missed := 0 } := by
      simp [Timer.countMissed, Timer.missedCount, Timer.lockMissed, hnoted]
    rw [ht]
    exact lockTo_of_timer (t := { s with timer := { s.timer with missed := 0 } }) ⟨rfl, rfl⟩ rfl rfl
  next hnoted =>
    have hnoted : s.timer.syncNoted = false := by simpa using hnoted
    have hmissed : satInc 1000 s.timer.missed = s.timer.missedCount := by simp [Timer.missedCount, satInc, hnoted]
    rw [hmissed]
    dsimp only
    split
    next hlock =>
      have ht : s.timer.countMissed = { s.timer with missed := s.timer.missedCount } := by
        simp [Timer.countMissed, Timer.lockMissed, hnoted, hlock]
      rw [ht]
      exact lockTo_of_timer (t := { s with timer := { s.timer with missed := s.timer.missedCount } }) ⟨rfl, rfl⟩ rfl rfl
    next hlock =>
      rw [acquireMissedLimit_eq]
      split
      next h =>
        have ht : s.timer.countMissed = { s.timer with missed := s.timer.missedCount, good := 0, lock := .free } := by
          simp [Timer.countMissed, Timer.lockMissed, hnoted, hlock, h.2.2]
        rw [ht]
        exact lockTo_changeLock (s := s) (u := { s with timer := { s.timer with missed := s.timer.missedCount, good := 0 } })
          ⟨rfl, rfl, rfl⟩ .free (by rw [hlock]; decide) rfl
      next h =>
        have h3 : ¬3 ≤ s.timer.missedCount := fun h3 => h ⟨hlock, hnoted, h3⟩
        have ht : s.timer.countMissed = { s.timer with missed := s.timer.missedCount, good := 0 } := by
          simp [Timer.countMissed, Timer.lockMissed, hnoted, hlock, h3]
        rw [ht]
        exact lockTo_of_timer (t := { s with timer := { s.timer with missed := s.timer.missedCount, good := 0 } }) ⟨rfl, rfl⟩
          rfl rfl
    next hlock =>
      have ht : s.timer.countMissed = { s.timer with missed := s.timer.missedCount, bad := 0, lock := .holdover } := by
        simp [Timer.countMissed, Timer.lockMissed, hnoted, hlock]
      rw [ht]
      exact lockTo_changeLock (s := s) (u := { s with timer := { s.timer with missed := s.timer.missedCount, bad := 0 } })
        ⟨rfl, rfl, rfl⟩ .holdover (by rw [hlock]; decide) rfl
    next hlock =>
      rw [holdoverLimit_eq]
      split
      next h =>
        have ht : s.timer.countMissed = { s.timer with missed := s.timer.missedCount, lock := .free } := by
          have h3 : s.timer.setup.holdoverLimit ≤ s.timer.missedCount := h.2.2
          simp [Timer.countMissed, Timer.lockMissed, hnoted, hlock, h3]
        rw [ht]
        exact lockTo_changeLock (s := s) (u := { s with timer := { s.timer with missed := s.timer.missedCount } })
          ⟨rfl, rfl, rfl⟩ .free (by rw [hlock]; decide) rfl
      next h =>
        have h3 : ¬s.timer.setup.holdoverLimit ≤ s.timer.missedCount := fun h3 => h ⟨hlock, hnoted, h3⟩
        have ht : s.timer.countMissed = { s.timer with missed := s.timer.missedCount } := by
          simp [Timer.countMissed, Timer.lockMissed, hnoted, hlock, h3]
        rw [ht]
        exact lockTo_of_timer (t := { s with timer := { s.timer with missed := s.timer.missedCount } }) ⟨rfl, rfl⟩ rfl rfl

/-! ### The setup latch -/

theorem timingDiffers_iff (a b : Setup) : timingDiffers a b = true ↔ (b.v ≠ a.v ∨ b.o ≠ a.o) := by
  unfold timingDiffers
  rw [Bool.or_eq_true, decide_eq_true_eq, decide_eq_true_eq]
  exact or_congr ne_comm ne_comm

/-- R124: the timer where a change of V or O meets the lock. -/
def Timer.retime (t : Timer) : Timer :=
  { t with
    lock := if t.lock = .locked then .acquire else t.lock
    good := if t.lock = .locked ∨ t.lock = .acquire then 0 else t.good
    bad := if t.lock = .locked then 0 else t.bad }

theorem retime_to (s : State) : LockTo s s.retime s.timer.retime := by
  unfold State.retime
  split
  next hlock =>
    have ht : s.timer.retime = { s.timer with good := 0, bad := 0, lock := .acquire } := by simp [Timer.retime, hlock]
    rw [ht]
    exact lockTo_changeLock (s := s) (u := { s with timer := { s.timer with good := 0, bad := 0 } }) ⟨rfl, rfl, rfl⟩
      .acquire (by rw [hlock]; decide) rfl
  next hlock =>
    have ht : s.timer.retime = { s.timer with good := 0 } := by simp [Timer.retime, hlock]
    rw [ht]
    exact lockTo_of_timer (t := { s with timer := { s.timer with good := 0 } }) ⟨rfl, rfl⟩ rfl rfl
  all_goals
    next hlock =>
      have ht : s.timer.retime = s.timer := by
        unfold Timer.retime
        rw [if_neg (by simp [hlock]), if_neg (by simp [hlock]), if_neg (by simp [hlock])]
      rw [ht]
      exact lockTo_of_timer ⟨rfl, rfl⟩ rfl rfl

/-- What the setup latch leaves in the timer, and the kinds it latches, judged by the new mask. -/
theorem latchSetup_to (s : State) : s.latchSetup.timer = s.timer.takeSetup ∧
    Noted False (fun j m => LockKinds s.timer s.timer.takeSetup s.timer.nextSetup.eventMask j m ∨
      OneKind (s.timer.pendSetup ≠ none) .setupTaken s.timer.nextSetup.eventMask j m) s s.latchSetup := by
  unfold State.latchSetup
  split
  next hpend =>
    have hnext : s.timer.nextSetup = s.timer.setup := by rw [Timer.nextSetup, hpend]; rfl
    have ht : s.timer.takeSetup = s.timer := by
      have hpend' : s.timer = { s.timer with pendSetup := none } := by rw [← hpend]
      rw [hpend']
      simp [Timer.takeSetup, Timer.nextSetup]
    refine ⟨ht.symm, (Noted.refl s).congr .rfl fun j m => ?_⟩
    simp [LockKinds, OneKind, NoKind, ht, hpend]
  next copy hpend =>
    have hnext : s.timer.nextSetup = copy := by rw [Timer.nextSetup, hpend]; rfl
    dsimp only
    have hretimed : LockTo { s with timer := { s.timer with setup := copy, pendSetup := none } }
        (if timingDiffers s.timer.setup copy then
          State.retime { s with timer := { s.timer with setup := copy, pendSetup := none } }
        else { s with timer := { s.timer with setup := copy, pendSetup := none } }) s.timer.takeSetup := by
      split
      next hdiff =>
        have hr : s.timer.Retimed := by rw [Timer.Retimed, hnext]; exact (timingDiffers_iff _ _).mp hdiff
        have ht : s.timer.takeSetup = ({ s.timer with setup := copy, pendSetup := none } : Timer).retime := by
          simp only [Timer.takeSetup, Timer.retime, hnext, hr, and_true]
        rw [ht]
        exact retime_to _
      next hdiff =>
        have hr : ¬s.timer.Retimed := by rw [Timer.Retimed, hnext]; exact fun h => hdiff ((timingDiffers_iff _ _).mpr h)
        have ht : s.timer.takeSetup = { s.timer with setup := copy, pendSetup := none } := by
          simp only [Timer.takeSetup, hnext, hr, and_false, if_false]
        rw [ht]
        exact lockTo_of_timer (t := { s with timer := { s.timer with setup := copy, pendSetup := none } }) ⟨rfl, rfl⟩ rfl rfl
    generalize (if timingDiffers s.timer.setup copy then
          State.retime { s with timer := { s.timer with setup := copy, pendSetup := none } }
        else { s with timer := { s.timer with setup := copy, pendSetup := none } }) = u at hretimed ⊢
    obtain ⟨htimer, hnoted⟩ := hretimed
    refine ⟨by rw [(latch_keeps _ _).1, htimer], ?_⟩
    have hmask : u.timer.setup.eventMask = copy.eventMask := by
      rw [htimer, ← hnext]
      rfl
    have hlatched := Noted.latch .setupTaken u
    rw [hmask] at hlatched
    have hstart : Noted False NoKind s { s with timer := { s.timer with setup := copy, pendSetup := none } } := .of_eq rfl rfl
    refine ((hstart.before hnoted).trans hlatched).congr (by simp) fun j m => ?_
    simp [LockKinds, OneKind, hnext, hpend]

/-! ### The gate, and the mark as a whole -/

theorem markStart_to (s : State) : LockTo s s.markStart s.timer.countStart := by
  unfold State.markStart State.startTimeout
  split
  next h =>
    have hout : 1 ≤ s.timer.setup.startTimeout ∧ s.timer.setup.startTimeout ≤ min 1000 (s.timer.startCount + 1) := h
    have ht : s.timer.countStart = { s.timer with startCount := min 1000 (s.timer.startCount + 1), gate := .opened } := by
      simp only [Timer.countStart, hout, and_self, if_true]
    rw [ht]
    refine ⟨openGate_timer _, ?_⟩
    have hstart : Noted False NoKind s { s with timer := { s.timer with startCount := satInc 1000 s.timer.startCount } } :=
      .of_eq rfl rfl
    refine (hstart.before (openGate_noted _)).congr .rfl fun j m => ?_
    have hg : (Gate.opened ≠ s.timer.gate) ↔ s.timer.gate = .gated := by cases s.timer.gate <;> simp
    simp [LockKinds, OneKind, hg]
  next h =>
    have hout : ¬(1 ≤ s.timer.setup.startTimeout ∧ s.timer.setup.startTimeout ≤ min 1000 (s.timer.startCount + 1)) := h
    have ht : s.timer.countStart = { s.timer with startCount := min 1000 (s.timer.startCount + 1) } := by
      simp only [Timer.countStart, if_neg hout]
    rw [ht]
    exact lockTo_of_timer (t := { s with timer := { s.timer with startCount := min 1000 (s.timer.startCount + 1) } })
      ⟨rfl, rfl⟩ rfl rfl

/-- R114, R164: the kinds that the Frame Timer's work at a mark latches: a LOCK_CHANGE of a missed frame by the old mask, and
the others by the mask of the setup copy now in force. -/
def TimerKinds (t : Timer) : EventKind → BitVec 12 → Prop := fun j m =>
  OneKind (t.lockMissed ≠ t.lock) .lockChange t.setup.eventMask j m ∨
  OneKind (t.lockMissed = .locked ∧ t.Retimed) .lockChange t.nextSetup.eventMask j m ∨
  OneKind (t.pendSetup ≠ none) .setupTaken t.nextSetup.eventMask j m ∨
  OneKind (t.marked.gate ≠ t.gate) .gateOpen t.nextSetup.eventMask j m

theorem markTimer_to (s : State) : s.markTimer.timer = s.timer.marked ∧ Noted False (TimerKinds s.timer) s s.markTimer := by
  simp only [State.markTimer]
  obtain ⟨hmissed, hmissedN⟩ := markMissed_to s
  generalize s.markMissed = m at hmissed hmissedN ⊢
  have hadopt : Noted False NoKind m { m with timer := m.timer.adopt } := .of_eq rfl rfl
  obtain ⟨hsetup, hsetupN⟩ := latchSetup_to { m with timer := m.timer.adopt }
  generalize State.latchSetup { m with timer := m.timer.adopt } = u at hsetup hsetupN ⊢
  obtain ⟨hstart, hstartN⟩ := markStart_to u
  generalize u.markStart = v at hstart hstartN ⊢
  have htimer : v.timer.beginFrame = s.timer.marked := by
    rw [hstart, hsetup, hmissed]
    rfl
  refine ⟨htimer, ?_⟩
  have hbegin : Noted False NoKind v { v with timer := v.timer.beginFrame } := .of_eq rfl rfl
  refine Noted.congr ((hmissedN.trans ((hadopt.before hsetupN).trans hstartN)).after hbegin) (by simp) fun j k => ?_
  rw [hsetup, hmissed]
  have hlock : (if s.timer.lockMissed = .locked ∧ s.timer.Retimed then LockState.acquire else s.timer.lockMissed) ≠
      s.timer.lockMissed ↔ s.timer.lockMissed = .locked ∧ s.timer.Retimed := by
    by_cases h : s.timer.lockMissed = .locked ∧ s.timer.Retimed
    · rw [if_pos h, h.1]
      simp [h]
    · rw [if_neg h]
      simp [h]
  show ((OneKind (s.timer.lockMissed ≠ s.timer.lock) _ _ j k ∨ OneKind (s.timer.gate ≠ s.timer.gate) _ _ j k) ∨
    (((OneKind ((if s.timer.lockMissed = .locked ∧ s.timer.Retimed then LockState.acquire else s.timer.lockMissed) ≠
        s.timer.lockMissed) _ _ j k ∨ OneKind (s.timer.gate ≠ s.timer.gate) _ _ j k) ∨ OneKind (s.timer.pendSetup ≠ none) _ _ j k) ∨
      (OneKind ((if s.timer.lockMissed = .locked ∧ s.timer.Retimed then LockState.acquire else s.timer.lockMissed) ≠
        if s.timer.lockMissed = .locked ∧ s.timer.Retimed then LockState.acquire else s.timer.lockMissed) _ _ j k ∨
        OneKind (s.timer.marked.gate ≠ s.timer.gate) _ _ j k))) ↔ _
  simp only [TimerKinds, OneKind, hlock, ne_eq, not_true_eq_false, false_and, or_false, false_or, or_assoc]
  exact .rfl

end Sys2Proof.Machine
end

section
/-! The ranges of the Frame Timer, of the sources and of the windows (R55, R58, R59, R92, R93, R113, R115 to R117, R122), and
that every step keeps them. -/

namespace Sys2Proof.Machine

/-! ### The Frame Timer -/

/-- TimerInRange, on the timer alone. -/
def Timer.inRange (t : Timer) : Prop :=
  t.good ≤ 7 ∧ t.bad ≤ 2 ∧ t.missed ≤ 1000 ∧ t.startCount ≤ 1000 ∧ t.slip ≤ 65535 ∧
  -8 ≤ t.trim ∧ t.trim ≤ 8 ∧ t.lineCount < t.frameLen ∧ t.setup.v ≤ t.frameLen + 8 ∧ t.frameLen ≤ t.setup.v + 8

theorem trimFor_bounds (lock : LockState) (e old : Int) (hlow : -8 ≤ old) (hhigh : old ≤ 8) :
    -8 ≤ trimFor lock e old ∧ trimFor lock e old ≤ 8 := by
  cases lock with
  | acquire =>
    show -8 ≤ max (-8) (min 8 e) ∧ max (-8) (min 8 e) ≤ 8
    omega
  | locked =>
    show -8 ≤ e.sign ∧ e.sign ≤ 8
    rcases Int.sign_trichotomy e with h | h | h <;> omega
  | free => exact ⟨hlow, hhigh⟩
  | holdover => exact ⟨hlow, hhigh⟩

/-- R116: setting the trim keeps the line in progress in its frame. -/
theorem Timer.inRange.setTrim {t : Timer} (h : t.inRange) : t.setTrim.inRange := by
  obtain ⟨hgood, hbad, hmissed, hstart, hslip, hlow, hhigh, hline, hv, hlen⟩ := h
  obtain ⟨hlow', hhigh'⟩ := trimFor_bounds t.lock t.lastPhase t.trim hlow hhigh
  refine ⟨hgood, hbad, hmissed, hstart, hslip, hlow', hhigh', ?_⟩
  show t.lineCount < trimmedLength _ _ _ ∧ t.setup.v ≤ trimmedLength _ _ _ + 8 ∧ trimmedLength _ _ _ ≤ t.setup.v + 8
  unfold trimmedLength
  split <;> omega

/-- R118: the good and bad counts stay below their limits. -/
theorem lockAfter_low {lock : LockState} {good bad : Nat} (e : Int) (hgood : good ≤ 7) (hbad : bad ≤ 2) :
    (lockAfter lock good bad e).2.1 ≤ 7 ∧ (lockAfter lock good bad e).2.2 ≤ 2 := by
  unfold lockAfter
  cases lock <;> dsimp only <;> repeat' split
  all_goals
    dsimp only
    omega

theorem Timer.inRange.synced {t : Timer} (number flags : BitVec 32) (h : t.inRange) : (t.synced number flags).inRange := by
  obtain ⟨hgood, hbad, hmissed, hstart, hslip, hframe⟩ := h
  have hlow := lockAfter_low (lock := t.lock) (phaseError t.setup.v t.setup.o t.lineCount) hgood hbad
  refine Timer.inRange.setTrim ⟨hlow.1, hlow.2, hmissed, hstart, ?_, hframe⟩
  show (if number = t.wallN + 1 then t.slip else satInc16 t.slip) ≤ 65535
  split
  · exact hslip
  · exact satInc16_le _

/-- A frame that begins is V lines long, and V is not 0. -/
theorem Timer.inRange.beginFrame {t : Timer} (hcounts : t.good ≤ 7 ∧ t.bad ≤ 2 ∧ t.missed ≤ 1000 ∧ t.startCount ≤ 1000 ∧ t.slip ≤ 65535)
    (hv : 1 ≤ t.setup.v) : t.beginFrame.inRange := by
  obtain ⟨hgood, hbad, hmissed, hstart, hslip⟩ := hcounts
  exact ⟨hgood, hbad, hmissed, hstart, hslip, (by decide : (-8 : Int) ≤ 0), (by decide : (0 : Int) ≤ 8), hv, Nat.le_add_right _ _, Nat.le_add_right _ _⟩

theorem Timer.inRange.marked {t : Timer} (h : t.inRange) (hv : 1 ≤ t.nextSetup.v) : t.marked.inRange := by
  obtain ⟨hgood, hbad, -, -, hslip, -⟩ := h
  refine Timer.inRange.beginFrame (t := t.countMissed.adopt.takeSetup.countStart) ⟨?_, ?_, ?_, Nat.min_le_left _ _, hslip⟩ hv
  · show (if _ then 0 else if _ then 0 else t.good) ≤ 7
    split
    · exact Nat.zero_le _
    · split
      · exact Nat.zero_le _
      · exact hgood
  · show (if _ then 0 else if _ then 0 else t.bad) ≤ 2
    split
    · exact Nat.zero_le _
    · split
      · exact Nat.zero_le _
      · exact hbad
  · show t.missedCount ≤ 1000
    unfold Timer.missedCount
    split
    · exact Nat.zero_le _
    · exact Nat.min_le_left _ _

/-- R113: the next line start of a frame that is not at its end names a line of the frame. -/
theorem Timer.nextLine_lt {t : Timer} (h : t.lineCount < t.frameLen) (hfollows : t.lineFollows = true) :
    t.nextLine < t.frameLen := by
  unfold Timer.lineFollows at hfollows
  unfold Timer.nextLine
  split
  · exact Nat.zero_lt_of_lt h
  · simp_all

theorem lineStart_timerInRange {s : State} (hs : s.timer.inRange) : s.lineStart.timer.inRange := by
  unfold State.lineStart
  split
  next hfollows =>
    obtain ⟨hgood, hbad, hmissed, hstart, hslip, hlow, hhigh, hline, hv, hlen⟩ := hs
    rw [(buildLine_keeps _ _).2.2.1]
    exact ⟨hgood, hbad, hmissed, hstart, hslip, hlow, hhigh, Timer.nextLine_lt hline hfollows, hv, hlen⟩
  next => exact hs

/-- The lock rules keep the ranges where they leave the good and bad counts below their limits. -/
theorem Timer.inRange.relocked {t : Timer} (h : t.inRange) (l : LockState) {good bad : Nat} (g : Gate) (hgood : good ≤ 7)
    (hbad : bad ≤ 2) : ({ t with lock := l, good := good, bad := bad, gate := g } : Timer).inRange := by
  obtain ⟨-, -, hrest⟩ := h
  exact ⟨hgood, hbad, hrest⟩

theorem lockAcquired_timerInRange {s : State} (hs : s.timer.inRange) : s.lockAcquired.timer.inRange := by
  unfold State.lockAcquired
  split
  · rw [enterLocked_timer]
    exact hs.relocked _ _ (Nat.zero_le _) (Nat.zero_le _)
  · exact hs

theorem lockBadLimit_timerInRange {s : State} (hs : s.timer.inRange) : s.lockBadLimit.timer.inRange := by
  unfold State.lockBadLimit
  split
  · rw [changeLock_timer]
    exact hs.relocked _ _ (Nat.zero_le _) (Nat.zero_le _)
  · exact hs

theorem acquireMissedLimit_timerInRange {s : State} (hs : s.timer.inRange) : s.acquireMissedLimit.timer.inRange := by
  rw [acquireMissedLimit_eq]
  split
  · rw [changeLock_timer]
    exact hs.relocked _ _ (Nat.zero_le _) hs.2.1
  · exact hs

theorem holdoverLimit_timerInRange {s : State} (hs : s.timer.inRange) : s.holdoverLimit.timer.inRange := by
  rw [holdoverLimit_eq]
  split
  · rw [changeLock_timer]
    exact hs.relocked _ _ hs.1 hs.2.1
  · exact hs

theorem startTimeout_timerInRange {s : State} (hs : s.timer.inRange) : s.startTimeout.timer.inRange := by
  unfold State.startTimeout
  split
  · rw [openGate_timer]
    exact hs.relocked _ _ hs.1 hs.2.1
  · exact hs

/-- R27, R123: a legal setup has lines. -/
theorem Setup.v_pos {r : Setup} {n : Nat} (h : r.ok n = true) : 1 ≤ r.v := by
  simp only [Setup.ok, Bool.and_eq_true, decide_eq_true_eq] at h
  omega

theorem SetupLegal.nextSetup_v_pos {s : State} (h : SetupLegal s) : 1 ≤ s.timer.nextSetup.v := by
  obtain ⟨hforce, hcopy⟩ := h
  unfold Timer.nextSetup
  cases hp : s.timer.pendSetup with
  | none => exact Setup.v_pos hforce
  | some copy => exact Setup.v_pos (hcopy copy hp)

theorem beginFrame_timerInRange {s : State} (hs : s.timer.inRange) (hv : 1 ≤ s.timer.setup.v) :
    s.timer.beginFrame.inRange := by
  obtain ⟨hgood, hbad, hmissed, hstart, hslip, -⟩ := hs
  exact .beginFrame ⟨hgood, hbad, hmissed, hstart, hslip⟩ hv

theorem powerOnResetEnd_timer (s : State) :
    s.powerOnResetEnd.timer = s.timer ∨ s.powerOnResetEnd.timer = s.timer.beginFrame := by
  unfold State.powerOnResetEnd
  split
  · right
    split
    · exact (changeLink_keeps _ _).1
    · rfl
  · exact .inl rfl

theorem tileResetEnd_timer (s : State) :
    s.tileResetEnd.timer = s.timer ∨ s.tileResetEnd.timer = s.timer.beginFrame := by
  unfold State.tileResetEnd
  split
  · right
    rw [(offerResetReply_keeps _).1, (settleLink_keeps _).1]
    rfl
  · exact .inl rfl

theorem workMove_timerInRange {s t : State} (h : WorkMove s t) (hs : s.timer.inRange) : t.timer.inRange := by
  cases h with
  | outer t h => rw [h]; exact hs
  | written t cls table i bytes h =>
    rcases writeRecord_cases h with ⟨-, n, r, -, -, -, rfl⟩ | ⟨-, n, r, -, rfl⟩ | ⟨-, r, -, rfl⟩ | ⟨-, i, k, rfl⟩ |
      ⟨-, i, r, rfl⟩ | ⟨-, i, g, rfl⟩ <;> exact hs
  | zeroed _ =>
    obtain ⟨hgood, hbad, hmissed, hstart, hslip, hframe⟩ := hs
    exact ⟨hgood, hbad, hmissed, hstart, zeroed_le hslip, hframe⟩
  | scene t h => rw [h]; exact hs
  | cueAdded => exact hs
  | cuesRemoved t h => rw [h]; exact hs
  | strobed t h => rw [h]; exact hs

theorem takeCommand_timerInRange {s : State} (c : Control) (hs : s.timer.inRange) : (s.takeCommand c).timer.inRange := by
  rcases takeCommand_cases s c with ⟨-, h⟩ | ⟨-, h⟩ <;> rw [h]
  · obtain ⟨-, -, -, -, -, hframe⟩ := hs
    exact ⟨Nat.zero_le _, Nat.zero_le _, Nat.zero_le _, Nat.zero_le _, Nat.zero_le _, hframe⟩
  · rw [(offerReply_keeps _ _).1]
    exact (judge_run s c).keeps (P := fun u => u.timer.inRange) (fun _ _ => workMove_timerInRange) hs

/-- Of the blocks that act at a mark only the Frame Timer changes the timer. -/
theorem frameMark_timer (s : State) (o : MarkOrder) : (s.frameMark o).timer = s.timer.marked :=
  frameMark_stages (P := fun u => u.timer = s.timer) (Q := fun u => u.timer = s.timer.marked)
    (R := fun u => u.timer = s.timer.marked) s o (fun _ h => h) (fun u h => by rw [(markInterval_keeps u).1, h])
    (fun u h => by rw [(markTimer_to u).1, h]) (fun u h => by rw [(markSources_keeps u).1, h])
    (fun u g h => by rw [(markScene_keeps g u).1, h]) (fun u g h => by rw [(markStore_keeps g u).1, h])
    (fun u h => by rw [(markSources_keeps u).1, h]) (fun _ h => h) (fun u h => by rw [(markInterval_keeps u).1, h]) rfl

theorem panelLine_timerInRange {s : State} (hs : s.timer.inRange) : s.panelLine.timer.inRange := by
  unfold State.panelLine
  split
  · exact hs
  · exact lineStart_timerInRange hs

theorem lineStart_command_timerInRange {s t : State} (h : exec .lineStart s = .next t) (hs : s.timer.inRange)
    (hv : 1 ≤ s.timer.nextSetup.v) : t.timer.inRange := by
  rcases exec_lineStart_cases s with ⟨-, he⟩ | ⟨-, he⟩ <;> rw [he] at h <;> cases h
  · refine lineStart_timerInRange ?_
    rw [frameMark_timer]
    exact hs.marked hv
  · exact panelLine_timerInRange hs

theorem exec_timerInRange {c : Instr} {s t : State} (h : exec c s = .next t) (hs : s.timer.inRange)
    (hlegal : SetupLegal s) : t.timer.inRange := by
  have hv : 1 ≤ s.timer.setup.v := Setup.v_pos hlegal.1
  have hnext : 1 ≤ s.timer.nextSetup.v := hlegal.nextSetup_v_pos
  have hkept : ∀ f : State → State, (f s).timer.inRange → (s.whenRunning f).timer.inRange := fun f hf =>
    whenRunning_of (P := fun u => u.timer.inRange) hs hf
  cases c
  case cellReceived c placeFirst =>
    rcases exec_cellReceived_cases h with hinner | ⟨f, ⟨rfl, -⟩ | rfl | rfl⟩
    · rw [hinner.1]; exact hs
    · rw [(stripArrival_keeps _ _).1]; exact hs
    · rw [(syncArrival_to _ _ _).1]; exact hs.synced _ _
    · exact takeCommand_timerInRange (s := s.mapRing f) _ hs
  case bypassCell c => rw [(exec_bypassCell_kept h).1]; exact hs
  case lineStart => exact lineStart_command_timerInRange h hs hnext
  case frameMark o =>
    rcases exec_frameMark_cases o s with ⟨-, he⟩ | ⟨-, he⟩ <;> rw [he] at h
    · cases h
      rw [frameMark_timer]
      exact hs.marked hnext
    · exact lineStart_command_timerInRange h hs hnext
  all_goals cases h
  case powerOnReset =>
    exact ⟨Nat.zero_le _, Nat.zero_le _, Nat.zero_le _, Nat.zero_le _, Nat.zero_le _, (by decide : (-8 : Int) ≤ 0),
      (by decide : (0 : Int) ≤ 8), (by decide : 0 < Setup.powerOn.v), Nat.le_add_right _ _, Nat.le_add_right _ _⟩
  case powerOnResetEnd =>
    rcases powerOnResetEnd_timer s with h | h <;> rw [h]
    · exact hs
    · exact beginFrame_timerInRange hs hv
  case tileResetEnd =>
    rcases tileResetEnd_timer s with h | h <;> rw [h]
    · exact hs
    · exact beginFrame_timerInRange hs hv
  case signalPresent => rw [(signalPresent_keeps s).1]; exact hs
  case signalLost => rw [(signalLost_keeps s).1]; exact hs
  case idlePlace => exact hs
  all_goals refine hkept _ ?_
  case linkAligned => rw [(linkAligned_keeps s).1]; exact hs
  case linkAlignmentLoss => rw [(alignmentLost_keeps s).1]; exact hs
  case idleGenerate => split <;> exact hs
  case lockAcquired =>
    split
    · exact (lockAcquired_timerInRange hs).setTrim
    · exact hs
  case lockBadLimit =>
    split
    · exact (lockBadLimit_timerInRange hs).setTrim
    · exact hs
  case acquireMissedLimit => exact acquireMissedLimit_timerInRange hs
  case holdoverLimit => exact holdoverLimit_timerInRange hs
  case startTimeout => exact startTimeout_timerInRange hs
  case stallLimit n => rw [(stallSource_keeps n s).1]; exact hs
  case lossLimit n => rw [(loseSource_keeps n s).1]; exact hs
  case cueExpiry => rw [(expireCue_keeps s).1]; exact hs
  case tourStep k => rw [(stepTour_keeps k s).2.2.1]; exact hs
  case statusInterval => rw [(statusInterval_keeps s).1]; exact hs

end Sys2Proof.Machine
end

section
/-! The counts of the sources and of the windows' stores (R55, R58, R59, R92, R93), and the ranges of the tile as a whole. -/

namespace Sys2Proof.Machine

/-! ### The sources -/

/-- R55, R58, R59, for every source. -/
def TracksInRange (s : State) : Prop := ∀ n, (s.src.states.get n).inRange

theorem TracksInRange.of_eq {s t : State} (h : t.src.states = s.src.states) (hs : TracksInRange s) : TracksInRange t := by
  intro n
  rw [h]
  exact hs n

theorem TracksInRange.setTrack {s : State} (hs : TracksInRange s) (n : Fin 32) {t : SourceTrack} (ht : t.inRange) :
    TracksInRange (s.setTrack n t) := Table.set_all (P := SourceTrack.inRange) hs ht

theorem SourceTrack.inRange.counted {t : SourceTrack} (h : t.inRange) : t.counted.inRange := by
  obtain ⟨hsince, hrunning, hlast, hcounts⟩ := h
  refine ⟨?_, Nat.zero_le _, ?_, hcounts⟩
  · show (if t.state = .off then t.sinceStart else satInc16 t.sinceStart) ≤ 65535
    split
    · exact hsince
    · exact satInc16_le _
  · show t.startsAtMark ≤ 15
    unfold SourceTrack.startsAtMark
    split
    · exact Nat.zero_le _
    · exact hrunning

theorem sourceLive_tracksInRange {s : State} (n : Fin 32) (hs : TracksInRange s) : TracksInRange (s.sourceLive n) := by
  have hlive : TracksInRange (s.setTrack n
      { s.src.states.get n with sinceStart := 0, state := if (s.src.states.get n).state = .off then .off else .live }) :=
    hs.setTrack n ⟨Nat.zero_le _, (hs n).2⟩
  simp only [State.sourceLive]
  split
  · exact .of_eq (by rw [(latch_keeps _ _).2.2.1]) hlive
  · exact .of_eq (by rw [(latch_keeps _ _).2.2.1]) hlive
  · exact .of_eq (by rw [(latch_keeps _ _).2.2.1]) hlive
  · exact hlive
  · exact hlive

/-- R53: the track of a source whose frame is judged. -/
def SourceTrack.ended (t : SourceTrack) (complete : Bool) : SourceTrack :=
  { t with
    frameOpen := false
    completed := if complete then wrapInc t.completed else t.completed
    rejected := if complete then t.rejected else satInc16 t.rejected }

/-- R53, R80 to R82: a frame end without the source state. -/
def State.closeFrame (s : State) (n : Fin 32) (complete : Bool) : State :=
  { s.setTrack n ((s.src.states.get n).ended complete) with
    store := s.store.frameEnd s.scene.active n ((s.src.states.get n).tag.getD 0) complete }

theorem endFrame_eq (s : State) (n : Fin 32) : s.endFrame n =
    if (s.src.states.get n).isComplete (s.src.records.get n) = true
    then (s.closeFrame n ((s.src.states.get n).isComplete (s.src.records.get n))).sourceLive n
    else s.closeFrame n ((s.src.states.get n).isComplete (s.src.records.get n)) := rfl

theorem SourceTrack.inRange.ended {t : SourceTrack} (h : t.inRange) (complete : Bool) : (t.ended complete).inRange := by
  obtain ⟨hsince, hrunning, hlast, hcompleted, hrejected, hrest⟩ := h
  cases complete with
  | false => exact ⟨hsince, hrunning, hlast, hcompleted, satInc16_le _, hrest⟩
  | true => exact ⟨hsince, hrunning, hlast, wrapInc_le _, hrejected, hrest⟩

theorem endFrame_tracksInRange {s : State} (n : Fin 32) (hs : TracksInRange s) : TracksInRange (s.endFrame n) := by
  have hclosed : ∀ complete, TracksInRange (s.closeFrame n complete) := fun complete => hs.setTrack n ((hs n).ended complete)
  rw [endFrame_eq]
  split
  · exact sourceLive_tracksInRange n (hclosed _)
  · exact hclosed _

/-- R52: the track of a source whose strip is accepted. -/
def SourceTrack.accept (t : SourceTrack) (st : Strip) : SourceTrack :=
  { t with accepted := t.accepted + 1, lastLine := st.line, lastSegment := st.segment }

/-- R52: an accepted strip, without the frame's end. -/
def State.takeStrip (s : State) (n : Fin 32) (st : Strip) : State :=
  { s.setTrack n ((s.src.states.get n).accept st) with store := s.store.intake (s.src.records.get n) n st }

theorem takeStrip_src (s : State) (n : Fin 32) (st : Strip) :
    (s.takeStrip n st).src = (s.setTrack n ((s.src.states.get n).accept st)).src := by
  unfold State.takeStrip
  rfl

theorem acceptStrip_eq (s : State) (n : Fin 32) (st : Strip) : s.acceptStrip n st =
    if st.line + 1 = (s.src.records.get n).sh ∧ st.segment + 1 = (s.src.records.get n).segments
    then (s.takeStrip n st).endFrame n else s.takeStrip n st := rfl

theorem acceptStrip_tracksInRange {s : State} (n : Fin 32) (st : Strip) (hs : TracksInRange s) :
    TracksInRange (s.acceptStrip n st) := by
  have htaken : TracksInRange (s.takeStrip n st) :=
    .of_eq (by rw [takeStrip_src]) (hs.setTrack n (t := (s.src.states.get n).accept st) (hs n))
  rw [acceptStrip_eq]
  split
  · exact endFrame_tracksInRange n htaken
  · exact htaken

theorem startFrame_tracksInRange {s : State} (n : Fin 32) (st : Strip) (hs : TracksInRange s) :
    TracksInRange (s.startFrame n st) := by
  have hclosed : TracksInRange (if (s.src.states.get n).frameOpen then s.endFrame n else s) := by
    split
    · exact endFrame_tracksInRange n hs
    · exact hs
  unfold State.startFrame
  generalize (if (s.src.states.get n).frameOpen then s.endFrame n else s) = u at hclosed ⊢
  obtain ⟨hsince, -, hrest⟩ := hclosed n
  exact acceptStrip_tracksInRange n st (hclosed.setTrack n ⟨hsince, Nat.min_le_left _ _, hrest⟩)

theorem stripArrival_tracksInRange {s : State} (st : Strip) (hs : TracksInRange s) : TracksInRange (s.stripArrival st) := by
  have hdiscard : ∀ n, TracksInRange (s.discardStrip n) := fun n => by
    obtain ⟨hsince, hrunning, hlast, hcompleted, hrejected, -, hsequence⟩ := hs n
    exact hs.setTrack n ⟨hsince, hrunning, hlast, hcompleted, hrejected, satInc16_le _, hsequence⟩
  unfold State.stripArrival
  split
  next => exact hs
  next n _ => exact hdiscard n
  next n _ =>
    dsimp only
    split
    · exact startFrame_tracksInRange n st hs
    · split
      · split
        · exact acceptStrip_tracksInRange n st hs
        · obtain ⟨hsince, hrunning, hlast, hcompleted, hrejected, hdiscarded, -⟩ := hs n
          exact hs.setTrack n ⟨hsince, hrunning, hlast, hcompleted, hrejected, hdiscarded, satInc16_le _⟩
      · exact hdiscard n

theorem stallSource_tracksInRange {s : State} (n : Fin 32) (hs : TracksInRange s) : TracksInRange (s.stallSource n) := by
  simp only [State.stallSource]
  split
  · exact .of_eq (by rw [(latch_keeps _ _).2.2.1]) (hs.setTrack n (t := { s.src.states.get n with state := .stalled }) (hs n))
  · exact hs

theorem loseSource_tracksInRange {s : State} (n : Fin 32) (hs : TracksInRange s) : TracksInRange (s.loseSource n) := by
  simp only [State.loseSource]
  split
  · exact .of_eq (by rw [(latch_keeps _ _).2.2.1]) (hs.setTrack n (t := { s.src.states.get n with state := .lost }) (hs n))
  · exact hs

theorem markSources_tracksInRange {s : State} (hs : TracksInRange s) : TracksInRange s.markSources :=
  foldl_keeps (P := TracksInRange) (f := fun acc n => acc.markSource n) (fun _ n hu =>
    loseSource_tracksInRange n (stallSource_tracksInRange n (hu.setTrack n (hu n).counted))) (indices 32) hs

theorem frameMark_tracksInRange {s : State} (o : MarkOrder) (hs : TracksInRange s) : TracksInRange (s.frameMark o) :=
  frameMark_induct s o (fun _ h => h) (fun u h => .of_eq (by rw [(markInterval_keeps u).2.2.1]) h)
    (fun u h => .of_eq (by rw [(markTimer_keeps u).2.1]) h) (fun _ h => markSources_tracksInRange h)
    (fun u g h => .of_eq (by rw [(markScene_keeps g u).2.1]) h) (fun u g h => .of_eq (by rw [(markStore_keeps g u).2.2.1]) h) hs

theorem workMove_tracksInRange {s t : State} (h : WorkMove s t) (hs : TracksInRange s) : TracksInRange t := by
  cases h with
  | outer t h => rw [h]; exact hs
  | written t cls table i bytes h =>
    rcases writeRecord_cases h with ⟨-, n, r, -, -, -, rfl⟩ | ⟨-, n, r, -, rfl⟩ | ⟨-, r, -, rfl⟩ | ⟨-, i, k, rfl⟩ |
      ⟨-, i, r, rfl⟩ | ⟨-, i, g, rfl⟩
    · exact hs
    · exact hs.setTrack n (t := (s.src.states.get n).rewritten r.enabled) ⟨Nat.zero_le _, (hs n).2⟩
    all_goals exact hs
  | zeroed => exact hs
  | scene t h => rw [h]; exact hs
  | cueAdded => exact hs
  | cuesRemoved t h => rw [h]; exact hs
  | strobed t h => rw [h]; exact hs

theorem idle_inRange (state : SourceState) : ({ SourceTrack.idle with state := state } : SourceTrack).inRange :=
  ⟨Nat.zero_le _, Nat.zero_le _, Nat.zero_le _, Nat.zero_le _, Nat.zero_le _, Nat.zero_le _, Nat.zero_le _⟩

theorem takeCommand_tracksInRange {s : State} (c : Control) (hs : TracksInRange s) : TracksInRange (s.takeCommand c) := by
  rcases takeCommand_cases s c with ⟨-, h⟩ | ⟨-, h⟩ <;> rw [h]
  · intro n
    show ((s.src.records.map SourceTrack.tileReset).get n).inRange
    rw [Table.get_map]
    exact idle_inRange _
  · exact .of_eq (by rw [(offerReply_keeps _ _).2.2.1]) ((judge_run s c).keeps (fun _ _ => workMove_tracksInRange) hs)

theorem lineStart_tracksInRange {s t : State} (h : exec .lineStart s = .next t) (hs : TracksInRange s) : TracksInRange t := by
  rcases exec_lineStart_cases s with ⟨-, he⟩ | ⟨-, he⟩ <;> rw [he] at h <;> cases h
  · refine .of_eq (s := State.frameMark { s with freeIdx := s.freeIdx + 1 } (Config.lineMarkOrder s.freeIdx)) ?_ ?_
    · unfold State.lineMark
      rw [(lineStart_keeps _).2.2.2.1]
    · exact frameMark_tracksInRange (s := { s with freeIdx := s.freeIdx + 1 }) _ hs
  · exact .of_eq (by rw [(panelLine_keeps s).2.2.2.1]) hs

theorem exec_tracksInRange {c : Instr} {s t : State} (h : exec c s = .next t) (hs : TracksInRange s) : TracksInRange t := by
  rcases exec_cases h with ⟨⟨-, hsrc, -⟩, -⟩ | ⟨cell, placeFirst, rfl⟩ | ⟨o, rfl⟩ | rfl | rfl | rfl | ⟨k, rfl⟩ | ⟨n, rfl⟩ |
    ⟨n, rfl⟩
  · exact .of_eq (by rw [hsrc]) hs
  · rcases exec_cellReceived_cases h with ⟨-, -, hsrc, -⟩ | ⟨f, ⟨rfl, -⟩ | rfl | rfl⟩
    · exact .of_eq (by rw [hsrc]) hs
    · exact stripArrival_tracksInRange (s := s.mapRing f) _ hs
    · exact .of_eq (by simp) hs
    · exact takeCommand_tracksInRange (s := s.mapRing f) _ hs
  · rcases exec_frameMark_cases o s with ⟨-, he⟩ | ⟨-, he⟩ <;> rw [he] at h
    · cases h
      exact frameMark_tracksInRange o hs
    · exact lineStart_tracksInRange h hs
  · exact lineStart_tracksInRange h hs
  · cases h
    intro n
    rw [powerOnReset_src, Tracker.powerOn_states_get]
    exact idle_inRange _
  all_goals cases h
  · exact whenRunning_of hs (.of_eq (by rw [(expireCue_keeps s).2.1]) hs)
  · exact whenRunning_of hs (.of_eq (by rw [(stepTour_keeps k s).2.2.2.1]) hs)
  · exact whenRunning_of hs (stallSource_tracksInRange n hs)
  · exact whenRunning_of hs (loseSource_tracksInRange n hs)

/-! ### The windows' stores -/

/-- R92, R93, on the Store Manager alone. -/
def StoreManager.countsFit (m : StoreManager) : Prop := (∀ n, (m.wins.get n).countsFit) ∧ m.degraded ≤ 32

theorem mapWins_countsFit {m : StoreManager} {f : Fin 32 → WinStore → WinStore} (h : ∀ n w, WinMove w (f n w))
    (hm : ∀ n, (m.wins.get n).countsFit) (n : Fin 32) : ((m.mapWins f).wins.get n).countsFit := by
  rw [StoreManager.mapWins_get]
  exact (h n _).countsFit (hm n)

theorem WinStore.empty_countsFit : WinStore.empty.countsFit := ⟨Nat.zero_le _, Nat.zero_le _, Nat.zero_le _⟩

/-- R88 to R91: freeing and giving buffers leave a window's counters. -/
theorem allocate_countsFit {m : StoreManager} (h : HandOver) (hm : ∀ n, (m.wins.get n).countsFit) (n : Fin 32) :
    ((m.allocate h).wins.get n).countsFit := by
  refine allocate_keeps (P := fun k => ∀ n, (k.wins.get n).countsFit) (Q := fun k => ∀ n, (k.wins.get n).countsFit)
    (fun hmoved n => ?_) (fun k n v held _ _ _ _ hk => ?_) (fun _ _ hk => hk) ?_ n
  · rw [freeLosers_eq]
    dsimp only
    rw [Table.get_ofFn]
    unfold HandOver.left
    split <;> exact hmoved n
  · exact Table.set_all (P := WinStore.countsFit) hk (hk n)
  · exact mapWins_countsFit (fun n w => .of_ite (.rearmed w)) hm

theorem StoreMove.countsFit {m k : StoreManager} (h : StoreMove m k) (hm : m.countsFit) : k.countsFit := by
  obtain ⟨hwins, hdegraded⟩ := hm
  cases h with
  | mapped f h => exact ⟨mapWins_countsFit h hwins, hdegraded⟩
  | intake src s st =>
    rw [StoreManager.countsFit, (StoreManager.intake_keeps m src s st).2.1, (StoreManager.intake_keeps m src s st).2.2.1]
    exact ⟨hwins, hdegraded⟩
  | allocated h =>
    refine ⟨allocate_countsFit h hwins, ?_⟩
    exact (List.length_filter_le _ _).trans (indices_length 32).le
  | published h => exact ⟨hwins, hdegraded⟩
  | tileReset g =>
    refine ⟨fun n => ?_, Nat.zero_le _⟩
    simp only [StoreManager.tileReset, Table.get_fill]
    exact WinStore.empty_countsFit
  | powerOn =>
    refine ⟨fun n => ?_, Nat.zero_le _⟩
    simp only [StoreManager.powerOn, Table.get_fill]
    exact WinStore.empty_countsFit

theorem countsInRange_iff (s : State) : CountsInRange s ↔ TracksInRange s ∧ s.store.countsFit := Iff.rfl

/-- Settles O57: the ring's counts command by command; the timer's by what each command makes of the timer; the sources' and the
stores' counts by the moves of those two blocks. -/
theorem rangesKept : Obligations.RangesKept := by
  unfold Obligations.RangesKept
  refine fun s t h => ⟨fun hring => ?_, fun htimer hcounts hlegal => ⟨?_, ?_⟩⟩
  · exact step_keeps (fun _ _ _ => exec_ringInRange) (fun _ _ => id) h hring
  · rcases step_cases h with rfl | ⟨c, rest, h⟩
    · exact htimer
    · exact exec_timerInRange h htimer hlegal
  · obtain ⟨htracks, hstore⟩ := (countsInRange_iff s).mp hcounts
    exact ⟨step_keeps (fun _ _ _ => exec_tracksInRange) (fun _ _ => id) h htracks,
      (step_store_run h).keeps (fun _ _ => StoreMove.countsFit) hstore⟩

end Sys2Proof.Machine
end

section
/-! The steps and the link: the queue of commands that wait (logs 1 and 20), the changes of the link state (R143, R152), and the
place of a cell that is replaced (R144, R149). -/

namespace Sys2Proof.Machine

/-! ### The queue of commands (logs 1, 20) -/

/-- Settles O1: the two branches of `step`. -/
theorem stepRunsFrontCommand : Obligations.StepRunsFrontCommand := by
  unfold Obligations.StepRunsFrontCommand
  refine ⟨fun c rest s h => ?_, fun s h => ?_⟩ <;> rw [step, h]

theorem takeCommand_pending (s : State) (c : Control) : (s.takeCommand c).pending = s.pending := by
  rcases takeCommand_cases s c with ⟨-, h⟩ | ⟨-, h⟩ <;> rw [h]
  · rfl
  · rw [(offerReply_keeps _ _).2.2.2.2.2.2.2]
    exact (judge_left s c).1

theorem receiveControl_pending (s : State) (c : Cell) (placeFirst : Bool) :
    (s.receiveControl c placeFirst).pending = s.pending := by
  unfold State.receiveControl
  dsimp only
  split
  · exact takeCommand_pending _ _
  · split
    · exact takeCommand_pending _ _
    · rfl

theorem receive_pending (s : State) (c : Cell) (placeFirst : Bool) : (s.receive c placeFirst).pending = s.pending := by
  unfold State.receive
  split
  · rfl
  · simp
  · split
    · unfold State.receiveGood
      dsimp only
      split
      · simp
      · simp
      · exact receiveControl_pending _ _ _
      all_goals rfl
    · simp

theorem lineStart_command_pending {s t : State} (h : exec .lineStart s = .next t) : t.pending = s.pending := by
  rcases exec_lineStart_cases s with ⟨-, he⟩ | ⟨-, he⟩ <;> rw [he] at h <;> cases h
  · simp [State.lineMark]
  · simp [State.panelLine]
    split <;> simp

/-- A command's effect leaves the queue of waiting commands as it was. -/
theorem exec_pending {c : Instr} {s t : State} (h : exec c s = .next t) : t.pending = s.pending := by
  have hkept : ∀ f : State → State, (f s).pending = s.pending → (s.whenRunning f).pending = s.pending := fun f hf =>
    whenRunning_of (P := fun u => u.pending = s.pending) rfl hf
  cases c
  case cellReceived c placeFirst =>
    simp only [exec, execCellReceived] at h
    split at h <;> cases h
    split
    · exact receive_pending s c placeFirst
    · simp
  case bypassCell c =>
    simp only [exec, execBypassCell] at h
    split at h <;> cases h
    split <;> simp
  case lineStart => exact lineStart_command_pending h
  case frameMark o =>
    rcases exec_frameMark_cases o s with ⟨-, he⟩ | ⟨-, he⟩ <;> rw [he] at h
    · cases h
      simp
    · exact lineStart_command_pending h
  all_goals cases h
  case powerOnReset => rfl
  case powerOnResetEnd => simp
  case tileResetEnd => simp
  case signalPresent => simp
  case signalLost => simp
  case idlePlace => rfl
  all_goals refine hkept _ ?_
  case idleGenerate => split <;> rfl
  case lockAcquired => split <;> simp
  case lockBadLimit => split <;> simp
  all_goals simp

/-- Settles O2: a meaning refuses only an operand that is no whole cell, and every effect leaves the queue of commands. -/
theorem wellFormedCommandsComplete : Obligations.WellFormedCommandsComplete := by
  unfold Obligations.WellFormedCommandsComplete
  refine fun c s => ⟨fun hwell => ?_, fun hill => ?_, fun t => exec_pending⟩
  · cases c
    case cellReceived c placeFirst => exact ⟨_, exec_cellReceived c placeFirst s (of_decide_eq_true hwell)⟩
    case bypassCell c => exact ⟨_, exec_bypassCell c s (of_decide_eq_true hwell)⟩
    all_goals exact ⟨_, rfl⟩
  · cases c
    case cellReceived c placeFirst => exact if_neg (of_decide_eq_false hill)
    case bypassCell c => exact if_neg (of_decide_eq_false hill)
    all_goals cases hill

/-! ### The link state (R143, R152) -/

theorem innerKept_changeLink (l : LinkState) (s : State) : InnerKept s (s.changeLink l) := by
  obtain ⟨htimer, hscene, hsrc, hstore, hcomp, hcues, hfree, -⟩ := changeLink_keeps l s
  exact .of_eq htimer hscene hsrc hstore hcomp hcues hfree

/-- A link state that is no longer UP, or was not UP, raises no alignment losses. -/
theorem changeLink_ring_of_not_up {s : State} (l : LinkState) (h : s.ring.link ≠ .up) :
    (s.changeLink l).ring = { s.ring with link := l, runCount := 0, slot := (s.changeLink l).ring.slot } := by
  rw [changeLink_ring, if_neg h]

theorem changeLink_ring_of_up {s : State} (l : LinkState) (h : s.ring.link = .up) :
    (s.changeLink l).ring = { s.ring with
      link := l, runCount := 0, alignLosses := min 65535 (s.ring.alignLosses + 1), slot := (s.changeLink l).ring.slot } := by
  rw [changeLink_ring, if_pos h]

theorem linkAligned_of_reached {s : State} (hlink : s.ring.link = .aligning) (hrun : 8 ≤ s.ring.runCount) :
    s.linkAligned = s.changeLink .up := if_pos ⟨hlink, hrun⟩

theorem linkAligned_of_not {s : State} (h : s.ring.link ≠ .aligning ∨ s.ring.runCount < 8) : s.linkAligned = s :=
  if_neg fun hr => h.elim (· hr.1) (Nat.not_lt.mpr hr.2)

theorem alignmentLost_of_reached {s : State} (hlink : s.ring.link = .up) (hrun : 4 ≤ s.ring.runCount) :
    s.alignmentLost = s.changeLink .aligning := if_pos ⟨hlink, hrun⟩

theorem alignmentLost_of_not {s : State} (h : s.ring.link ≠ .up ∨ s.ring.runCount < 4) : s.alignmentLost = s :=
  if_neg fun hr => h.elim (· hr.1) (Nat.not_lt.mpr hr.2)

theorem signalPresent_of_kept {s : State} (h : s.ring.phase ≠ .running ∨ s.ring.link ≠ .down) :
    s.signalPresent = { s with ring := { s.ring with signal := true } } :=
  if_neg fun hr => h.elim (· hr.1) (· hr.2)

theorem signalPresent_of_down {s : State} (hphase : s.ring.phase = .running) (hlink : s.ring.link = .down) :
    s.signalPresent = State.changeLink { s with ring := { s.ring with signal := true } } .aligning :=
  if_pos ⟨hphase, hlink⟩

theorem signalLost_of_kept {s : State} (h : s.ring.phase ≠ .running ∨ s.ring.link = .down) :
    s.signalLost = { s with ring := { s.ring with signal := false, signalHeld := false } } :=
  if_neg fun hr => h.elim (· hr.1) hr.2

theorem signalLost_of_link {s : State} (hphase : s.ring.phase = .running) (hlink : s.ring.link ≠ .down) :
    s.signalLost = State.changeLink { s with ring := { s.ring with signal := false, signalHeld := false } } .down :=
  if_pos ⟨hphase, hlink⟩

theorem whenRunning_running {s : State} (h : s.ring.phase = .running) (f : State → State) : s.whenRunning f = f s := if_pos h

theorem whenRunning_fixed {s : State} {f : State → State} (h : f s = s) : s.whenRunning f = s :=
  whenRunning_of (P := fun u => u = s) rfl h

theorem exec_linkAligned (s : State) : exec .linkAligned s = .next (s.whenRunning State.linkAligned) := rfl

theorem exec_linkAlignmentLoss (s : State) : exec .linkAlignmentLoss s = .next (s.whenRunning State.alignmentLost) := rfl

/-- Settles O11: each report and each limit is a change of the link state where its condition holds, and what it was elsewhere. -/
theorem linkStateChanges : Obligations.LinkStateChanges := by
  unfold Obligations.LinkStateChanges
  refine ⟨fun s hphase hdown => ⟨_, exec_signalPresent s, ?present⟩, fun s h => ?presentKept,
    fun s hphase hlink => ⟨_, exec_signalLost s, ?lost⟩, fun s h => ?lostKept,
    fun s hphase hlink hrun => ⟨_, exec_linkAligned s, ?aligned⟩, fun s h => ?alignedKept,
    fun s hphase hlink hrun => ⟨_, exec_linkAlignmentLoss s, ?loss⟩, fun s h => ?lossKept⟩
  case present =>
    rw [signalPresent_of_down hphase hdown]
    refine ⟨latched_latch _ _, innerKept_changeLink .aligning _, ?_⟩
    exact changeLink_ring_of_not_up (s := { s with ring := { s.ring with signal := true } }) _ (by simp [hdown])
  case presentKept => rw [exec_signalPresent, signalPresent_of_kept h]
  case lost =>
    rw [signalLost_of_link hphase hlink]
    exact ⟨latched_latch _ _, innerKept_changeLink .down _, changeLink_ring .down _⟩
  case lostKept => rw [exec_signalLost, signalLost_of_kept h]
  case aligned =>
    rw [whenRunning_running hphase, linkAligned_of_reached hlink hrun]
    exact ⟨latched_changeLink _ _, innerKept_changeLink .up _, changeLink_ring_of_not_up _ (by simp [hlink])⟩
  case alignedKept => rw [exec_linkAligned, whenRunning_fixed (linkAligned_of_not h)]
  case loss =>
    rw [whenRunning_running hphase, alignmentLost_of_reached hlink hrun]
    exact ⟨latched_changeLink _ _, innerKept_changeLink .aligning _, changeLink_ring_of_up _ hlink⟩
  case lossKept => rw [exec_linkAlignmentLoss, whenRunning_fixed (alignmentLost_of_not h)]

/-! ### The place of a cell (R144, R145, R149) -/

/-- R149: the counts of the Ring Port play no part in giving a place. -/
theorem Ring.givePlace_counts (r : Ring) (received errors run taken : Nat) :
    ({ r with cellsReceived := received, checkErrors := errors, runCount := run, controlTaken := taken } : Ring).givePlace =
      { r.givePlace with cellsReceived := received, checkErrors := errors, runCount := run, controlTaken := taken } := by
  rcases r.givePlace_cases with ⟨hplace, h⟩ | ⟨idle, hplace, ⟨hphase, hsignal⟩ | ⟨hphase, hslot, hreplies⟩, h⟩ |
    ⟨idle, hplace, hphase, hsignal, h⟩ | ⟨idle, body, hplace, hphase, hslot, h⟩ |
    ⟨idle, body, rest, hplace, hphase, hslot, hreplies, h⟩ <;> rw [h] <;> simp_all [Ring.givePlace]

theorem Ring.openPlaceFor_counts (r : Ring) (idle : Cell) (placeFirst : Bool) (received errors run taken : Nat) :
    ({ r with cellsReceived := received, checkErrors := errors, runCount := run, controlTaken := taken } :
        Ring).openPlaceFor idle placeFirst =
      { r.openPlaceFor idle placeFirst with
        cellsReceived := received, checkErrors := errors, runCount := run, controlTaken := taken } := by
  unfold Ring.openPlaceFor Ring.openPlace
  rw [Ring.givePlace_counts]
  split
  · exact Ring.givePlace_counts { r.givePlace with place := some idle } received errors run taken
  · rfl

theorem Ring.openPlaceFor_keeps (r : Ring) (idle : Cell) (placeFirst : Bool) :
    (r.openPlaceFor idle placeFirst).checkErrors = r.checkErrors ∧
    (r.openPlaceFor idle placeFirst).controlTaken = r.controlTaken := by
  unfold Ring.openPlaceFor Ring.openPlace
  split <;> simp

/-- R144: the Ring Port after a cell that a place of the tile's own replaces. -/
theorem Ring.opened_of_counted (r : Ring) (good raised placeFirst : Bool) (idle : Cell) :
    ((r.countCell good).openPlaceFor idle placeFirst).countRun raised =
      { r.opened idle placeFirst with
        checkErrors := if good then r.checkErrors else min 65535 (r.checkErrors + 1)
        runCount := if raised then r.runCount + 1 else 0 } := by
  have h := r.openPlaceFor_counts idle placeFirst (satInc16 r.cellsReceived)
    (if good then r.checkErrors else satInc16 r.checkErrors) r.runCount r.controlTaken
  rw [Ring.countRun, Ring.countCell, h, ← (r.openPlaceFor_keeps idle placeFirst).2]
  rfl

theorem Ring.opened_link (r : Ring) (idle : Cell) (placeFirst : Bool) : (r.opened idle placeFirst).link = r.link := by
  unfold Ring.opened
  split <;> simp

theorem Ring.opened_alignLosses (r : Ring) (idle : Cell) (placeFirst : Bool) :
    (r.opened idle placeFirst).alignLosses = r.alignLosses := by
  unfold Ring.opened
  split <;> simp

theorem InnerKept.trans {s t u : State} (h : InnerKept s t) (k : InnerKept t u) : InnerKept s u :=
  ⟨k.1.trans h.1, h.2.trans k.2⟩

/-- R149: what has left and which place stands open, after the place of a received cell is opened. -/
theorem placeOpened_of_ring {s t : State} {idle : Cell} {placeFirst : Bool}
    (hplace : t.ring.place = (s.ring.opened idle placeFirst).place)
    (houtbound : t.ring.outbound = (s.ring.opened idle placeFirst).outbound) : PlaceOpened s t idle placeFirst := by
  unfold PlaceOpened
  rw [hplace, houtbound]
  refine ⟨fun h => ?_, fun h => ?_⟩
  · subst h
    exact ⟨rfl, rfl⟩
  · subst h
    exact ⟨({ s.ring.givePlace with place := some idle } : Ring).givePlace_keeps.2.2.2.2.2.2.2.2.2.2.2, rfl⟩

/-- R144: the state after a cell received in ALIGNING, before the run count's limit is judged. -/
theorem receiveAligning_eq (s : State) (good placeFirst : Bool) : s.receiveAligning good placeFirst =
    State.linkAligned { s with ring := { s.ring.opened idleCell placeFirst with
      checkErrors := if good then s.ring.checkErrors else min 65535 (s.ring.checkErrors + 1)
      runCount := if good then s.ring.runCount + 1 else 0 } } := by
  rw [← Ring.opened_of_counted]
  rfl

theorem receiveBad_eq (s : State) (placeFirst : Bool) : s.receiveBad placeFirst =
    State.alignmentLost { s with ring := { s.ring.opened idleCell placeFirst with
      checkErrors := min 65535 (s.ring.checkErrors + 1)
      runCount := s.ring.runCount + 1 } } := by
  have h := s.ring.opened_of_counted false true placeFirst idleCell
  simp only [Bool.false_eq_true, if_false, if_true] at h
  rw [← h]
  rfl

theorem linkAligned_outbound (s : State) :
    s.linkAligned.ring.place = s.ring.place ∧ s.linkAligned.ring.outbound = s.ring.outbound := by
  unfold State.linkAligned
  split
  · rw [changeLink_ring]
    exact ⟨rfl, rfl⟩
  · exact ⟨rfl, rfl⟩

theorem alignmentLost_outbound (s : State) :
    s.alignmentLost.ring.place = s.ring.place ∧ s.alignmentLost.ring.outbound = s.ring.outbound := by
  unfold State.alignmentLost
  split
  · rw [changeLink_ring]
    exact ⟨rfl, rfl⟩
  · exact ⟨rfl, rfl⟩

/-- Settles O12: the place opens and the counts follow; then the run count's limit is judged. -/
theorem aligningCellsBecomeIdle : Obligations.AligningCellsBecomeIdle := by
  unfold Obligations.AligningCellsBecomeIdle
  intro s c placeFirst hwhole hphase hlink
  have hexec := exec_cellReceived_aligning c placeFirst s hwhole hphase hlink
  rw [receiveAligning_eq] at hexec
  obtain ⟨u, hu⟩ : ∃ u : State, u = { s with ring := { s.ring.opened idleCell placeFirst with
      checkErrors := if cellGood c = true then s.ring.checkErrors else min 65535 (s.ring.checkErrors + 1)
      runCount := if cellGood c = true then s.ring.runCount + 1 else 0 } } := ⟨_, rfl⟩
  rw [← hu] at hexec
  have hulink : u.ring.link = .aligning := by rw [hu, ← hlink, ← s.ring.opened_link idleCell placeFirst]
  have hurun : u.ring.runCount = if cellGood c = true then s.ring.runCount + 1 else 0 := by rw [hu]
  have hinner : InnerKept s u := by rw [hu]; exact .of_eq rfl rfl rfl rfl rfl rfl rfl
  refine ⟨_, u, _, _, hexec, rfl, rfl, hu, fun hrun => ?_, fun hrun => ?_, ?_⟩
  · exact linkAligned_of_not (.inr (hurun ▸ hrun))
  · rw [linkAligned_of_reached hulink (hurun ▸ hrun)]
    exact ⟨latched_changeLink _ _, hinner.trans (innerKept_changeLink _ _), changeLink_ring_of_not_up _ (by simp [hulink])⟩
  · obtain ⟨hplace, houtbound⟩ := linkAligned_outbound u
    exact placeOpened_of_ring (hplace.trans (by rw [hu])) (houtbound.trans (by rw [hu]))

/-- Settles O13: the place opens and the counts follow; then the run count's limit is judged. -/
theorem badCellsInUpBecomeIdle : Obligations.BadCellsInUpBecomeIdle := by
  unfold Obligations.BadCellsInUpBecomeIdle
  intro s c placeFirst hwhole hphase hlink hbad
  have hexec := exec_cellReceived_bad c placeFirst s hwhole hphase hlink hbad
  rw [receiveBad_eq] at hexec
  obtain ⟨u, hu⟩ : ∃ u : State, u = { s with ring := { s.ring.opened idleCell placeFirst with
      checkErrors := min 65535 (s.ring.checkErrors + 1)
      runCount := s.ring.runCount + 1 } } := ⟨_, rfl⟩
  rw [← hu] at hexec
  have hulink : u.ring.link = .up := by rw [hu, ← hlink, ← s.ring.opened_link idleCell placeFirst]
  have hurun : u.ring.runCount = s.ring.runCount + 1 := by rw [hu]
  have hulosses : u.ring.alignLosses = s.ring.alignLosses := by
    rw [hu]
    exact s.ring.opened_alignLosses idleCell placeFirst
  have hinner : InnerKept s u := by rw [hu]; exact .of_eq rfl rfl rfl rfl rfl rfl rfl
  refine ⟨_, u, hexec, hu, fun hrun => ?_, fun hrun => ?_, ?_⟩
  · exact alignmentLost_of_not (.inr (by omega))
  · rw [alignmentLost_of_reached hulink (by omega), ← hulosses]
    exact ⟨latched_changeLink _ _, hinner.trans (innerKept_changeLink _ _), changeLink_ring_of_up _ hulink⟩
  · obtain ⟨hplace, houtbound⟩ := alignmentLost_outbound u
    exact placeOpened_of_ring (hplace.trans (by rw [hu])) (houtbound.trans (by rw [hu]))

end Sys2Proof.Machine
end

section
/-! Bytes and fields (00_scope.md, Byte order), the check word of R142, and the reply of a tile reset (R163). -/

namespace Sys2Proof.Machine

/-! ### Bytes and fields -/

theorem byte_toNat (n : Nat) : (byte n).toNat = n % 256 := BitVec.toNat_ofNat n 8

@[simp] theorem natBytes_length (k n : Nat) : (natBytes k n).length = k := by simp [natBytes]

theorem natBytes_succ (k n : Nat) : natBytes (k + 1) n = byte (n / 256 ^ k) :: natBytes k n := by
  unfold natBytes
  rw [List.range_succ_eq_map, List.map_cons, List.map_map]
  refine congrArg₂ List.cons (by simp) (List.map_congr_left fun i hi => ?_)
  have hik : k + 1 - 1 - (i + 1) = k - 1 - i := by omega
  simp only [Function.comp, Nat.succ_eq_add_one, hik]

theorem natBytes_two (n : Nat) : natBytes 2 n = [byte (n / 256), byte n] := by
  rw [natBytes_succ, natBytes_succ]
  simp [natBytes]

theorem natBytes_four (n : Nat) :
    natBytes 4 n = [byte (n / 256 ^ 3), byte (n / 256 ^ 2), byte (n / 256), byte n] := by
  rw [natBytes_succ, natBytes_succ, natBytes_two]

theorem foldl_bytes (l : List Byte) (a : Nat) :
    l.foldl (fun acc b => 256 * acc + b.toNat) a = a * 256 ^ l.length + bytesNat l := by
  induction l generalizing a with
  | nil => simp [bytesNat]
  | cons b l ih =>
    have hb := ih b.toNat
    have h0 : bytesNat (b :: l) = l.foldl (fun acc b => 256 * acc + b.toNat) b.toNat := by simp [bytesNat]
    rw [h0, List.foldl_cons, ih, hb, List.length_cons, pow_succ]
    ring

theorem bytesNat_cons (b : Byte) (l : List Byte) : bytesNat (b :: l) = b.toNat * 256 ^ l.length + bytesNat l := by
  have h : bytesNat (b :: l) = l.foldl (fun acc b => 256 * acc + b.toNat) b.toNat := by simp [bytesNat]
  rw [h, foldl_bytes]

theorem bytesNat_append (l m : List Byte) : bytesNat (l ++ m) = bytesNat l * 256 ^ m.length + bytesNat m := by
  unfold bytesNat
  rw [List.foldl_append, foldl_bytes]
  rfl

theorem bytesNat_lt (l : List Byte) : bytesNat l < 256 ^ l.length := by
  induction l with
  | nil => simp [bytesNat]
  | cons b l ih =>
    rw [bytesNat_cons, List.length_cons, pow_succ]
    have hb : b.toNat < 256 := b.isLt
    nlinarith

theorem bytesNat_natBytes (k n : Nat) : bytesNat (natBytes k n) = n % 256 ^ k := by
  induction k with
  | zero => simp [natBytes, bytesNat, Nat.mod_one]
  | succ k ih =>
    rw [natBytes_succ, bytesNat_cons, ih, natBytes_length, byte_toNat, pow_succ, Nat.mod_mul]
    ring

theorem natBytes_bytesNat (l : List Byte) : natBytes l.length (bytesNat l) = l := by
  induction l with
  | nil => simp [natBytes]
  | cons b l ih =>
    have hlt := bytesNat_lt l
    have hdiv : (b.toNat * 256 ^ l.length + bytesNat l) / 256 ^ l.length = b.toNat := by
      rw [Nat.mul_comm, Nat.mul_add_div (Nat.pos_of_ne_zero (by simp)), Nat.div_eq_of_lt hlt, Nat.add_zero]
    have hmod : natBytes l.length (b.toNat * 256 ^ l.length + bytesNat l) = natBytes l.length (bytesNat l) := by
      refine List.map_congr_left fun i hi => ?_
      have hi : i < l.length := List.mem_range.mp hi
      refine BitVec.eq_of_toNat_eq ?_
      rw [byte_toNat, byte_toNat]
      obtain ⟨d, hd⟩ : ∃ d, l.length = l.length - 1 - i + 1 + d := ⟨i, by omega⟩
      have hpow : 256 ^ l.length = 256 ^ (l.length - 1 - i) * (256 * 256 ^ d) := by
        conv_lhs => rw [hd]
        rw [pow_add, pow_succ]
        ring
      have hexpand : b.toNat * 256 ^ l.length + bytesNat l =
          bytesNat l + 256 ^ (l.length - 1 - i) * (256 * (b.toNat * 256 ^ d)) := by
        rw [hpow]
        ring
      rw [hexpand, Nat.add_mul_div_left _ _ (Nat.pos_of_ne_zero (by simp)), Nat.add_mul_mod_self_left]
    rw [List.length_cons, natBytes_succ, bytesNat_cons, hdiv, hmod, ih]
    simp [byte]

theorem byteAt_append_left {l m : List Byte} {i : Nat} (h : i < l.length) : byteAt (l ++ m) i = byteAt l i := by
  simp [byteAt, List.getD_eq_getElem?_getD, List.getElem?_append_left h]

theorem byteAt_append_right {l m : List Byte} {i : Nat} (h : l.length ≤ i) :
    byteAt (l ++ m) i = byteAt m (i - l.length) := by
  simp [byteAt, List.getD_eq_getElem?_getD, List.getElem?_append_right h]

theorem byteAt_of_le {l : List Byte} {i : Nat} (h : l.length ≤ i) : byteAt l i = 0 := by
  simp [byteAt, List.getD_eq_getElem?_getD, List.getElem?_eq_none h]

@[simp] theorem byteAt_replicate_zero (n i : Nat) : byteAt (List.replicate n 0) i = 0 := by
  simp only [byteAt, List.getD_eq_getElem?_getD, List.getElem?_replicate]
  split <;> rfl

theorem field_two {l : List Byte} {i : Nat} (h : i + 2 ≤ l.length) :
    field l i 2 = 256 * (byteAt l i).toNat + (byteAt l (i + 1)).toNat := by
  have hsplit : l.drop i = l[i] :: l[i + 1] :: l.drop (i + 2) := by
    rw [List.drop_eq_getElem_cons (by omega), List.drop_eq_getElem_cons (by omega)]
  have hfield : field l i 2 = bytesNat [l[i], l[i + 1]] := by rw [field, hsplit]; rfl
  have hfirst : byteAt l i = l[i] := List.getD_eq_getElem _ _ _
  have hsecond : byteAt l (i + 1) = l[i + 1] := List.getD_eq_getElem _ _ _
  rw [hfield, hfirst, hsecond]
  simp [bytesNat]

theorem field_append_right (l m : List Byte) (k : Nat) : field (l ++ m) l.length k = field m 0 k := by
  simp [field]

/-! ### The check word (R142) -/

theorem checkBit_of_eq {reg : BitVec 16} {bit : Bool} (h : reg.msb = bit) : checkBit reg bit = reg <<< 1 := if_pos h

theorem checkBit_low (reg : BitVec 16) (bit : Bool) : (checkBit reg bit).getLsbD 0 = (reg.msb != bit) := by
  unfold checkBit
  split
  next h => simp [h]
  next h =>
    have hne : (reg.msb != bit) = true := by simpa using h
    rw [hne, BitVec.getLsbD_xor]
    simp

/-- The bit shifted out is told by the lowest bit, and the others by the shift. -/
theorem checkBit_injective (bit : Bool) {a b : BitVec 16} (h : checkBit a bit = checkBit b bit) : a = b := by
  have hlow := congrArg (fun r : BitVec 16 => r.getLsbD 0) h
  simp only [checkBit_low] at hlow
  have hmsb : a.msb = b.msb := by
    revert hlow
    cases a.msb <;> cases b.msb <;> cases bit <;> decide
  have hshift : a <<< 1 = b <<< 1 := by
    unfold checkBit at h
    rw [hmsb] at h
    split at h
    · exact h
    · exact BitVec.xor_left_inj _ |>.mp h
  refine BitVec.eq_of_getLsbD_eq fun i hi => ?_
  by_cases hi15 : i = 15
  · subst hi15
    simpa [BitVec.msb_eq_getLsbD_last] using hmsb
  · have hbit := congrArg (fun r : BitVec 16 => r.getLsbD (i + 1)) hshift
    have hlt : i + 1 < 16 := by omega
    simp only [BitVec.getLsbD_shiftLeft, hlt, decide_true, Bool.true_and, Nat.add_sub_cancel] at hbit
    simpa using hbit

theorem foldl_checkBit_injective (f : Nat → Bool) (l : List Nat) {a b : BitVec 16}
    (h : l.foldl (fun acc i => checkBit acc (f i)) a = l.foldl (fun acc i => checkBit acc (f i)) b) : a = b := by
  induction l generalizing a b with
  | nil => exact h
  | cons i l ih => exact checkBit_injective _ (ih h)

theorem checkByte_injective (b : Byte) {x y : BitVec 16} (h : checkByte x b = checkByte y b) : x = y :=
  foldl_checkBit_injective _ _ h

/-- Where the register's high byte is the byte that comes, it is shifted out. -/
theorem checkByte_of_high {reg : BitVec 16} {b : Byte} (h : ∀ i, i < 8 → reg.getLsbD (8 + i) = b.getLsbD i) :
    checkByte reg b = reg <<< 8 := by
  have hstep : ∀ k, k < 8 → checkBit (reg <<< (7 - k)) (b.getLsbD k) = reg <<< (7 - k + 1) := fun k hk => by
    have hmsb : (reg <<< (7 - k)).msb = b.getLsbD k := by
      rw [BitVec.msb_eq_getLsbD_last, BitVec.getLsbD_shiftLeft, ← h k hk, show 16 - 1 - (7 - k) = 8 + k by omega]
      simp
      omega
    rw [checkBit_of_eq hmsb, ← BitVec.shiftLeft_add]
  have h7 := hstep 7 (by decide)
  have h6 := hstep 6 (by decide)
  have h5 := hstep 5 (by decide)
  have h4 := hstep 4 (by decide)
  have h3 := hstep 3 (by decide)
  have h2 := hstep 2 (by decide)
  have h1 := hstep 1 (by decide)
  have h0 := hstep 0 (by decide)
  simp only [Nat.reduceSub, Nat.reduceAdd, BitVec.shiftLeft_zero] at h7 h6 h5 h4 h3 h2 h1 h0
  simp only [checkByte, List.foldl_cons, List.foldl_nil, h7, h6, h5, h4, h3, h2, h1, h0]

/-- A register is brought to 0 by its own two bytes, and by no others. -/
theorem checkBytes_eq_zero_iff (reg : BitVec 16) (a b : Byte) :
    checkByte (checkByte reg a) b = 0 ↔ reg.toNat = 256 * a.toNat + b.toNat := by
  have ha : checkByte (a ++ b : BitVec 16) a = (a ++ b : BitVec 16) <<< 8 := checkByte_of_high fun i hi => by
    rw [BitVec.getLsbD_append]
    simp
  have hb : checkByte ((a ++ b : BitVec 16) <<< 8) b = (a ++ b : BitVec 16) <<< 8 <<< 8 := checkByte_of_high fun i hi => by
    rw [BitVec.getLsbD_shiftLeft, BitVec.getLsbD_append]
    simp [hi]
    omega
  have hzero : (a ++ b : BitVec 16) <<< 8 <<< 8 = 0 := by
    rw [← BitVec.shiftLeft_add]
    exact BitVec.shiftLeft_eq_zero (by decide)
  have hself : checkByte (checkByte (a ++ b : BitVec 16) a) b = 0 := by rw [ha, hb, hzero]
  have hnat : (a ++ b : BitVec 16).toNat = 256 * a.toNat + b.toNat := by
    rw [toNat_append_eq_add]
    omega
  constructor
  · intro h
    have heq : reg = (a ++ b : BitVec 16) := checkByte_injective a (checkByte_injective b (h.trans hself.symm))
    rw [heq, hnat]
  · intro h
    have heq : reg = (a ++ b : BitVec 16) := BitVec.eq_of_toNat_eq (h.trans hnat.symm)
    rw [heq, hself]

theorem checkWord_append (l m : List Byte) : checkWord (l ++ m) = m.foldl checkByte (checkWord l) := List.foldl_append

/-- A body followed by two bytes is good exactly when they are its check word. -/
theorem cellGood_append_iff {body : List Byte} (hlen : body.length = 254) (a b : Byte) :
    cellGood (body ++ [a, b]) = true ↔ (checkWord body).toNat = 256 * a.toNat + b.toNat := by
  have htake : (body ++ [a, b]).take Config.bodyBytes = body := List.take_left' hlen
  have hfield : field (body ++ [a, b]) Config.bodyBytes 2 = 256 * a.toNat + b.toNat := by
    have h := field_append_right body [a, b] 2
    rw [hlen] at h
    rw [show Config.bodyBytes = 254 from rfl, h]
    simp [field, bytesNat]
  rw [cellGood, decide_eq_true_iff, htake, hfield]

theorem sealCell_eq (body : List Byte) :
    sealCell body = body ++ [byte ((checkWord body).toNat / 256), byte (checkWord body).toNat] := by
  rw [sealCell, natBytes_two]

theorem cellGood_sealCell {body : List Byte} (hlen : body.length = 254) : cellGood (sealCell body) = true := by
  rw [sealCell_eq, cellGood_append_iff hlen, byte_toNat, byte_toNat]
  have h : (checkWord body).toNat < 65536 := (checkWord body).isLt
  omega

theorem sealCell_whole {body : List Byte} (hlen : body.length = 254) : Cell.Whole (sealCell body) := by
  simp [sealCell, Cell.Whole, hlen, Config.cellBytes]

/-- A whole cell is its body and two more bytes. -/
theorem whole_eq_append {cell : Cell} (h : Cell.Whole cell) :
    ∃ a b, cell = cell.take 254 ++ [a, b] ∧ (cell.take 254).length = 254 := by
  have hlen : cell.length = 256 := h
  obtain ⟨a, b, hdrop⟩ := List.length_eq_two.mp (show (cell.drop 254).length = 2 by simp [hlen])
  exact ⟨a, b, by rw [← hdrop, List.take_append_drop], by simp [hlen]⟩

/-- Settles O18: the register after byte 253 is brought to 0 by its own two bytes and no others, and those are what a good cell
carries and what the tile seals a cell with. -/
theorem checkWords : Obligations.CheckWords := by
  unfold Obligations.CheckWords
  refine ⟨fun c hwhole => ?_, fun body hlen => ⟨cellGood_sealCell hlen, sealCell_whole hlen⟩,
    cellGood_sealCell (List.length_replicate)⟩
  obtain ⟨a, b, hc, hlen⟩ := whole_eq_append hwhole
  rw [hc, cellGood_append_iff hlen, checkWord_append]
  exact (checkBytes_eq_zero_iff _ a b).symm

/-! ### The reply of a tile reset (R163) -/

@[simp] theorem padTo_length (k : Nat) (l : List Byte) : (padTo k l).length = k := by
  simp [padTo]
  omega

@[simp] theorem replyBody_length (address : Nat) (originator sequence command : Byte) (a : Answer) :
    (replyBody address originator sequence command a).length = 254 := by simp [replyBody]

/-- Settles O9: the reply is the REPLY cell of a plain OK, put into the emptied queue. -/
theorem tileResetReplyAtEnd : Obligations.TileResetReplyAtEnd := by
  unfold Obligations.TileResetReplyAtEnd
  refine ⟨fun s originator sequence hphase howed hempty => ?_, fun s hphase => ?_⟩
  · obtain ⟨-, -, -, hreplies, -, -⟩ := settleLink_ring s.endBypass
    have hreset : s.endBypass.settleLink.ring.resetReply = some (originator, sequence) := by
      unfold State.settleLink
      split
      · exact howed
      · rw [changeLink_ring]
        exact howed
    have haddress : s.endBypass.settleLink.cmd.address = s.cmd.address := by
      unfold State.settleLink
      split
      · rfl
      · simp [State.changeLink, State.endBypass]
    have hqueue : s.endBypass.settleLink.ring.replies = [] := hreplies.trans hempty
    have hend : s.tileResetEnd = offerReply (replyBody s.cmd.address originator sequence 17 (Answer.plain .ok))
        (s.endBypass.settleLink.mapRing fun r => { r with resetReply := none }) := by
      rw [State.tileResetEnd, if_pos hphase, State.offerResetReply, hreset, ← haddress]
    refine ⟨_, replyBody s.cmd.address originator sequence 17 (Answer.plain .ok), exec_tileResetEnd s, ?_, ?_,
      replyBody_length _ _ _ _ _, rfl, fun i hi => ?_⟩
    · rw [hend, offerReply, if_pos (by simp [State.mapRing, hqueue, Config.replyCapacity])]
      simp [State.mapRing, hqueue]
    · rw [hend, offerReply, if_pos (by simp [State.mapRing, hqueue, Config.replyCapacity])]
      rfl
    · have hzeros : replyBody s.cmd.address originator sequence 17 (Answer.plain .ok) =
          [4, byte s.cmd.address, originator, sequence, 17, 0, 0] ++ List.replicate 247 0 := rfl
      rw [hzeros, byteAt_append_right hi, byteAt_replicate_zero]
  · rw [exec_tileResetEnd, exec_powerOnResetEnd, State.tileResetEnd, State.powerOnResetEnd, hphase]
    exact ⟨rfl, rfl⟩

end Sys2Proof.Machine
end

section
/-! Cells received in UP and in bypass (R144 to R151): what leaves, what is counted, and which command is taken. -/

namespace Sys2Proof.Machine

/-! ### The Ring Port after a good cell in UP (R145, R152) -/

theorem Ring.forward_counted (r : Ring) (c : Cell) : ((r.countCell true).countRun false).forward c = r.passed c := by
  have h := r.givePlace_counts (satInc16 r.cellsReceived) r.checkErrors 0 r.controlTaken
  have he : ((r.countCell true).countRun false).givePlace = { r.givePlace with
      cellsReceived := satInc16 r.cellsReceived, checkErrors := r.checkErrors, runCount := 0
      controlTaken := r.controlTaken } := h
  rw [Ring.forward, he, Ring.send, ← r.givePlace_keeps.2.2.2.2.2.2.2.1, ← r.givePlace_keeps.2.2.2.2.2.2.2.2.2.1]
  rfl

theorem Ring.forward_counted_control (r : Ring) (c : Cell) :
    (((r.countCell true).countRun false).countControl).forward c =
      { r.passed c with controlTaken := min 65535 (r.controlTaken + 1) } := by
  have h := r.givePlace_counts (satInc16 r.cellsReceived) r.checkErrors 0 (satInc16 r.controlTaken)
  have he : ((r.countCell true).countRun false).countControl.givePlace = { r.givePlace with
      cellsReceived := satInc16 r.cellsReceived, checkErrors := r.checkErrors, runCount := 0
      controlTaken := satInc16 r.controlTaken } := h
  rw [Ring.forward, he, Ring.send, ← r.givePlace_keeps.2.2.2.2.2.2.2.1]
  rfl

theorem Ring.openPlaceFor_counted (r : Ring) (idle : Cell) (placeFirst : Bool) :
    ((r.countCell true).countRun false).openPlaceFor idle placeFirst = r.opened idle placeFirst := by
  have h := r.openPlaceFor_counts idle placeFirst (satInc16 r.cellsReceived) r.checkErrors 0 r.controlTaken
  obtain ⟨herrors, htaken⟩ := r.openPlaceFor_keeps idle placeFirst
  have he : ((r.countCell true).countRun false).openPlaceFor idle placeFirst = { r.openPlaceFor idle placeFirst with
      cellsReceived := satInc16 r.cellsReceived, checkErrors := r.checkErrors, runCount := 0
      controlTaken := r.controlTaken } := h
  rw [he, ← herrors, ← htaken]
  rfl

theorem Ring.openPlaceFor_counted_control (r : Ring) (idle : Cell) (placeFirst : Bool) :
    (((r.countCell true).countRun false).countControl).openPlaceFor idle placeFirst =
      { r.opened idle placeFirst with controlTaken := min 65535 (r.controlTaken + 1) } := by
  have h := r.openPlaceFor_counts idle placeFirst (satInc16 r.cellsReceived) r.checkErrors 0 (satInc16 r.controlTaken)
  have he : ((r.countCell true).countRun false).countControl.openPlaceFor idle placeFirst =
      { r.openPlaceFor idle placeFirst with
        cellsReceived := satInc16 r.cellsReceived, checkErrors := r.checkErrors, runCount := 0
        controlTaken := satInc16 r.controlTaken } := h
  rw [he, ← (r.openPlaceFor_keeps idle placeFirst).1]
  rfl

/-! ### What a good cell in UP comes to, by its kind (Table 9-2) -/

/-- R145, R152: the state after a good cell is counted and forwarded. -/
def State.passed (s : State) (c : Cell) : State := { s with ring := s.ring.passed c }

theorem receiveGood_strip {s : State} {c : Cell} (placeFirst : Bool) (h : cellKind c = .strip) :
    s.receiveGood c placeFirst = (s.passed c).stripArrival (stripOf c) := by
  unfold State.receiveGood
  rw [h, State.passed, ← Ring.forward_counted]
  rfl

theorem receiveGood_sync {s : State} {c : Cell} (placeFirst : Bool) (h : cellKind c = .sync) :
    s.receiveGood c placeFirst = (s.passed c).syncArrival (syncNumber c) (syncFlags c) := by
  unfold State.receiveGood
  rw [h, State.passed, ← Ring.forward_counted]
  rfl

theorem receiveGood_idle {s : State} {c : Cell} (placeFirst : Bool) (h : cellKind c = .idle) :
    s.receiveGood c placeFirst = { s with ring := s.ring.opened c placeFirst } := by
  unfold State.receiveGood
  rw [h, ← Ring.openPlaceFor_counted]
  rfl

theorem receiveGood_forwarded {s : State} {c : Cell} (placeFirst : Bool)
    (h : cellKind c = .reply ∨ cellKind c = .status ∨ cellKind c = .noMeaning) :
    s.receiveGood c placeFirst = s.passed c := by
  unfold State.receiveGood
  rw [State.passed, ← Ring.forward_counted]
  rcases h with h | h | h <;> rw [h] <;> rfl

theorem receiveGood_control_other {s : State} {c : Cell} (placeFirst : Bool) (h : cellKind c = .control)
    (hzero : (controlOf c).destination ≠ 0) (hother : (controlOf c).destination ≠ s.cmd.address) :
    s.receiveGood c placeFirst = s.passed c := by
  unfold State.receiveGood
  rw [State.passed, ← Ring.forward_counted, h]
  exact (if_neg hzero).trans (if_neg hother)

/-- R152, R147: the state that takes the command of a broadcast CONTROL cell that leaves as `d`. -/
def State.heard (s : State) (d : Cell) : State :=
  { s with ring := { s.ring.passed d with controlTaken := min 65535 (s.ring.controlTaken + 1) } }

theorem receiveGood_broadcast {s : State} {c : Cell} (placeFirst : Bool) (h : cellKind c = .control)
    (hzero : (controlOf c).destination = 0) :
    s.receiveGood c placeFirst = (s.heard (s.broadcastLeaving c)).takeCommand (controlOf c) := by
  unfold State.receiveGood
  rw [h, State.heard, ← Ring.forward_counted_control]
  exact if_pos hzero

/-- R152, R146: the state that takes the command of a CONTROL cell for this tile's own address. -/
def State.consumed (s : State) (placeFirst : Bool) : State :=
  { s with ring := { s.ring.opened idleCell placeFirst with controlTaken := min 65535 (s.ring.controlTaken + 1) } }

theorem receiveGood_addressed {s : State} {c : Cell} (placeFirst : Bool) (h : cellKind c = .control)
    (hzero : (controlOf c).destination ≠ 0) (hmine : (controlOf c).destination = s.cmd.address) :
    s.receiveGood c placeFirst = (s.consumed placeFirst).takeCommand (controlOf c) := by
  unfold State.receiveGood
  rw [h, State.consumed, ← Ring.openPlaceFor_counted_control]
  exact (if_neg hzero).trans (if_pos hmine)

theorem Ring.passed_keeps (r : Ring) (c : Cell) : (r.passed c).place = none ∧
    (r.passed c).outbound = r.givePlace.outbound ++ [c] ∧ (r.passed c).link = r.link ∧ (r.passed c).phase = r.phase := by
  obtain ⟨hphase, -, -, -, hlink, -, -, -, -, -, -, hplace⟩ := r.givePlace_keeps
  exact ⟨hplace, rfl, hlink, hphase⟩

theorem Command.ofCode_eq_enumerate {n : Nat} (h : Command.ofCode n = some .enumerate) : n = 16 := by
  unfold Command.ofCode at h
  split at h <;> simp_all

/-- R147: only an ENUMERATE has its hop raised. -/
theorem broadcastLeaving_of_ne {s : State} {c : Cell} (h : (controlOf c).command ≠ 16) : s.broadcastLeaving c = c := by
  have hcode : Command.ofCode (controlOf c).command.toNat ≠ some .enumerate := fun hcode =>
    h (BitVec.eq_of_toNat_eq (Command.ofCode_eq_enumerate hcode))
  rw [State.broadcastLeaving, State.takesHop, decide_eq_false hcode]
  rfl

/-- Settles O14: by the kind of the cell. -/
theorem goodCellsForwarded : Obligations.GoodCellsForwarded := by
  unfold Obligations.GoodCellsForwarded
  intro s c placeFirst hwhole hphase hlink hgood
  refine ⟨_, exec_cellReceived_good c placeFirst s hwhole hphase hlink hgood, fun hkind => ?_, fun hkind => ?_,
    fun hkind => receiveGood_idle placeFirst hkind, fun hkind hzero hcommand => ?_⟩
  · have hslot : RingKeptButSlot (s.passed c) (s.receiveGood c placeFirst) := by
      rcases hkind with hkind | hkind
      · rw [receiveGood_strip placeFirst hkind]
        exact (stripArrival_outer _ _).1
      · rw [receiveGood_sync placeFirst hkind]
        exact (syncArrival_outer _ _ _).1
    obtain ⟨hplace, houtbound, hlinked, -⟩ := s.ring.passed_keeps c
    refine ⟨hslot, ?_, ?_, ?_⟩ <;> rw [hslot]
    · exact hplace
    · exact houtbound
    · exact hlinked.trans hlink
  · rcases hkind with hkind | hkind | hkind | ⟨hkind, hzero, hother⟩
    · exact receiveGood_forwarded placeFirst (.inl hkind)
    · exact receiveGood_forwarded placeFirst (.inr (.inl hkind))
    · exact receiveGood_forwarded placeFirst (.inr (.inr hkind))
    · exact receiveGood_control_other placeFirst hkind hzero hother
  · rw [receiveGood_broadcast placeFirst hkind hzero, broadcastLeaving_of_ne hcommand]
    rfl

/-! ### A command taken (R154) -/

theorem StoreManager.tileReset_fields (m : StoreManager) (g : Geometry) : (m.tileReset g).mem = m.mem ∧
    (m.tileReset g).free = indices 8192 ∧ (m.tileReset g).degraded = 0 ∧
    ∀ n, (m.tileReset g).wins.get n = WinStore.empty := by
  simp only [StoreManager.tileReset, Table.get_fill, implies_true, and_self]

theorem startTileReset_store (s : State) (originator sequence : Byte) :
    (s.startTileReset originator sequence).store = s.store.tileReset s.timer.setup.geo := by
  unfold State.startTileReset
  rfl

/-- What taking a command leaves of the outbound side, the scene in force and the frame memory. -/
theorem takeCommand_left (s : State) (c : Control) :
    (s.takeCommand c).ring.place = s.ring.place ∧ (s.takeCommand c).ring.outbound = s.ring.outbound ∧
    (s.takeCommand c).scene.active = (if s.startsReset c = true then Table.fill 32 WinRec.default else s.scene.active) ∧
    (s.takeCommand c).store.mem = s.store.mem := by
  rcases takeCommand_cases s c with ⟨hstarts, h⟩ | ⟨hstarts, h⟩ <;> rw [h, hstarts]
  · rw [startTileReset_store, (StoreManager.tileReset_fields _ _).1]
    exact ⟨rfl, rfl, rfl, rfl⟩
  · obtain ⟨-, -, hmem, -, hactive, -, -, -, houtbound, hplace⟩ := judge_left s c
    obtain ⟨-, hscene, -, hstore, -⟩ := offerReply_keeps
      (replyBody (s.judge c).1.cmd.address c.originator c.sequence c.command (s.judge c).2) (s.judge c).1
    have hring : ∀ (body : List Byte) (u : State), (offerReply body u).ring.place = u.ring.place ∧
        (offerReply body u).ring.outbound = u.ring.outbound := fun body u => by
      rcases offerReply_cases body u with ⟨-, h⟩ | ⟨-, h⟩ <;> rw [h] <;> simp
    exact ⟨(hring _ _).1.trans hplace, (hring _ _).2.trans houtbound, by rw [hscene, hactive]; rfl, by rw [hstore, hmem]⟩

/-- Settles O15: the place opens, the cell is counted, and its command is taken. -/
theorem addressedControlConsumed : Obligations.AddressedControlConsumed := by
  unfold Obligations.AddressedControlConsumed
  intro s c placeFirst hwhole hphase hlink hgood hkind hzero hmine
  have hexec := exec_cellReceived_good c placeFirst s hwhole hphase hlink hgood
  rw [receiveGood_addressed placeFirst hkind hzero hmine] at hexec
  obtain ⟨hplace, houtbound, hactive, hmem⟩ := takeCommand_left (s.consumed placeFirst) (controlOf c)
  exact ⟨_, hexec, rfl, placeOpened_of_ring hplace houtbound, hactive, fun a => by rw [hmem]; rfl⟩

/-- Settles O10: a TILE_RESET for this tile is taken, and starts the sequence. -/
theorem tileResetStart : Obligations.TileResetStart := by
  unfold Obligations.TileResetStart
  intro s c placeFirst hwhole hphase hlink hgood hkind hmine hcommand hclass
  have hexec := exec_cellReceived_good c placeFirst s hwhole hphase hlink hgood
  have hstarts : ∀ r : Ring, State.startsReset { s with ring := r } (controlOf c) = true := fun r => by
    have hclass' : State.classOf { s with ring := r } (controlOf c).originator = .supervisor := hclass
    rw [State.startsReset, hcommand, hclass']
    rfl
  have htaken : ∃ r : Ring, s.receiveGood c placeFirst =
      State.startTileReset { s with ring := r } (controlOf c).originator (controlOf c).sequence := by
    by_cases hzero : (controlOf c).destination = 0
    · exact ⟨_, (receiveGood_broadcast placeFirst hkind hzero).trans (if_pos (hstarts _))⟩
    · exact ⟨_, (receiveGood_addressed placeFirst hkind hzero (hmine.resolve_left hzero)).trans (if_pos (hstarts _))⟩
  obtain ⟨r, hr⟩ := htaken
  rw [hr] at hexec
  obtain ⟨hmem, hfree, hdegraded, hwins⟩ := s.store.tileReset_fields s.timer.setup.geo
  have hstore := startTileReset_store { s with ring := r } (controlOf c).originator (controlOf c).sequence
  refine ⟨_, hexec, ?_⟩
  unfold MemoryKept
  rw [hstore]
  exact ⟨rfl, rfl, rfl, rfl, rfl, rfl, rfl, rfl, rfl, rfl, rfl, rfl, rfl, rfl, rfl, rfl, rfl, rfl, rfl, rfl, rfl, rfl, rfl,
    rfl, fun n => Table.get_fill _ n, rfl, rfl, rfl, fun n => Table.get_fill _ n, rfl, fun n => Table.get_map _ _ n, hfree,
    hwins, hdegraded, fun a => by rw [hmem], rfl, rfl, rfl, fun i => Table.get_fill _ i, rfl⟩

/-! ### ENUMERATE (R147, R162) -/

theorem field_eq_of_take {l m : List Byte} {i k n : Nat} (h : l.take n = m.take n) (hle : i + k ≤ n) :
    field l i k = field m i k := by
  have hcut : ∀ q : List Byte, (q.drop i).take k = ((q.take n).drop i).take k := fun q => by
    rw [List.drop_take, List.take_take, Nat.min_eq_left (by omega)]
  rw [field, field, hcut l, hcut m, h]

/-- R147: the cell as it leaves with its hop raised. -/
theorem raiseHop_spec {c : Cell} (hwhole : Cell.Whole c) :
    (raiseHop c).length = 256 ∧ field (raiseHop c) 8 2 = (field c 8 2 + 1) % 65536 ∧
    (∀ i, i < 254 → i ≠ 8 → i ≠ 9 → byteAt (raiseHop c) i = byteAt c i) ∧ cellGood (raiseHop c) = true := by
  have hlen : c.length = 256 := hwhole
  have hbody : (c.take 8 ++ natBytes 2 (field c 8 2 + 1) ++ (c.drop 10).take 244).length = 254 := by simp [hlen]
  refine ⟨sealCell_whole hbody, ?_, fun i hi h8 h9 => ?_, cellGood_sealCell hbody⟩
  · have h := field_append_right (c.take 8) (natBytes 2 (field c 8 2 + 1) ++ ((c.drop 10).take 244 ++
      natBytes 2 (checkWord (c.take 8 ++ natBytes 2 (field c 8 2 + 1) ++ (c.drop 10).take 244)).toNat)) 2
    rw [List.length_take, hlen] at h
    rw [raiseHop, sealCell, List.append_assoc, List.append_assoc]
    refine h.trans ?_
    rw [field, List.drop_zero, List.take_left' (natBytes_length 2 _), bytesNat_natBytes]
    rfl
  · rw [raiseHop, sealCell, byteAt_append_left (by omega)]
    rcases Nat.lt_or_ge i 8 with hlow | hhigh
    · rw [List.append_assoc, byteAt_append_left (by simp [hlen]; omega)]
      simp [byteAt, List.getD_eq_getElem?_getD, hlow]
    · rw [byteAt_append_right (by simp [hlen]; omega)]
      simp only [List.length_append, List.length_take, natBytes_length, hlen, byteAt, List.getD_eq_getElem?_getD,
        List.getElem?_take, List.getElem?_drop]
      rw [if_pos (by omega), show 10 + (i - (min 8 256 + 2)) = i by omega]

theorem enumerateTaken_iff (cls : OrigClass) (c : Control) : enumerateTaken cls c = true ↔
    cls = .supervisor ∧ c.destination = 0 ∧ 1 ≤ c.arg1 ∧ c.arg1 ≤ 100 := by
  simp [enumerateTaken, and_assoc]

theorem OrigClass.ne_operator_iff (cls : OrigClass) : cls ≠ .operator ↔ cls = .supervisor := by cases cls <;> simp

/-- R154, R162: the judgement of an ENUMERATE. -/
theorem judge_enumerate {s : State} {c : Control} (h : c.command = 16) : s.judge c =
    if s.classOf c.originator = .operator then (s, Answer.plain .denied) else s.enumerate (s.classOf c.originator) c := by
  rw [State.judge, h]
  cases s.classOf c.originator <;> rfl

theorem offerReply_address (body : List Byte) (s : State) :
    (offerReply body s).cmd.address = s.cmd.address ∧ (offerReply body s).cmd.origins = s.cmd.origins := by
  rcases offerReply_cases body s with ⟨-, h⟩ | ⟨-, h⟩ <;> rw [h] <;> simp

/-- Settles O16: the judgement of ENUMERATE decides both the address and the cell that leaves. -/
theorem enumerateRaisesHop : Obligations.EnumerateRaisesHop := by
  unfold Obligations.EnumerateRaisesHop
  intro s c placeFirst k hwhole hphase hlink hgood hkind hk hzero hcommand
  subst hk
  have hexec := exec_cellReceived_good c placeFirst s hwhole hphase hlink hgood
  rw [receiveGood_broadcast placeFirst hkind hzero] at hexec
  have hcode : Command.ofCode (controlOf c).command.toNat = some .enumerate := by rw [hcommand]; rfl
  have hstarts : (s.heard (s.broadcastLeaving c)).startsReset (controlOf c) = false := by
    rw [State.startsReset, hcode]
    rfl
  have hleaving : s.broadcastLeaving c =
      if enumerateTaken (s.classOf (controlOf c).originator) (controlOf c) = true then raiseHop c else c := by
    rw [State.broadcastLeaving, State.takesHop, hcode]
    simp
  obtain ⟨d, hd⟩ : ∃ d, d = s.broadcastLeaving c := ⟨_, rfl⟩
  rw [← hd] at hexec hstarts hleaving
  have hclass : (s.heard d).classOf (controlOf c).originator = s.classOf (controlOf c).originator := rfl
  have hjudge := judge_enumerate (s := s.heard d) hcommand
  rw [hclass, State.enumerate] at hjudge
  have htake : (s.heard d).takeCommand (controlOf c) = offerReply _ ((s.heard d).judge (controlOf c)).1 :=
    if_neg (by rw [hstarts]; decide)
  have htaken : enumerateTaken (s.classOf (controlOf c).originator) (controlOf c) = true →
      (s.heard d).judge (controlOf c) =
        ({ s.heard d with cmd := { s.cmd with address := (controlOf c).arg1 } }, ⟨.ok, 0, s.cmd.address, 0, []⟩) := fun h => by
    obtain ⟨hsup, -⟩ := (enumerateTaken_iff _ _).mp h
    rw [hjudge, if_pos h, hsup, if_neg (by decide)]
    rfl
  have hrefused : ¬enumerateTaken (s.classOf (controlOf c).originator) (controlOf c) = true →
      (s.heard d).judge (controlOf c) = (s.heard d,
        Answer.plain (if s.classOf (controlOf c).originator = .operator then .denied else .range)) := fun h => by
    rw [hjudge, if_neg h]
    split <;> rfl
  have hinner : InnerKept s ((s.heard d).judge (controlOf c)).1 ∧
      ((s.heard d).judge (controlOf c)).1.cmd.origins = s.cmd.origins := by
    by_cases h : enumerateTaken (s.classOf (controlOf c).originator) (controlOf c) = true
    · rw [htaken h]
      exact ⟨.of_eq rfl rfl rfl rfl rfl rfl rfl, rfl⟩
    · rw [hrefused h]
      exact ⟨.of_eq rfl rfl rfl rfl rfl rfl rfl, rfl⟩
  refine ⟨d, s.heard d, _, hexec, rfl, rfl, ?_, ?_, ?_, fun hsup hlow hhigh => ?_, fun hnot => ?_⟩
  · rw [htake]
    obtain ⟨htimer, hscene, hsrc, hstore, hcomp, hcues, hfree, -⟩ := offerReply_keeps
      (replyBody ((s.heard d).judge (controlOf c)).1.cmd.address (controlOf c).originator (controlOf c).sequence
        (controlOf c).command ((s.heard d).judge (controlOf c)).2) ((s.heard d).judge (controlOf c)).1
    exact hinner.1.trans (.of_eq htimer hscene hsrc hstore hcomp hcues hfree)
  · rw [htake, (offerReply_address _ _).2, hinner.2]
  · exact (takeCommand_left _ _).2.1
  · have h := (enumerateTaken_iff _ _).mpr ⟨hsup, hzero, hlow, hhigh⟩
    obtain ⟨hlen, hfield, hbytes, hgoodD⟩ := raiseHop_spec hwhole
    rw [if_pos h] at hleaving
    refine ⟨htaken h, ?_, ?_⟩
    · rw [htake, (offerReply_address _ _).1, htaken h]
    · rw [hleaving]
      refine ⟨hlen, hfield.trans ?_, hbytes, hgoodD⟩
      have harg : (controlOf c).arg1 = field c 8 2 := rfl
      rw [← harg]
      omega
  · have h : ¬enumerateTaken (s.classOf (controlOf c).originator) (controlOf c) = true := fun h => by
      obtain ⟨hsup, -, hlow, hhigh⟩ := (enumerateTaken_iff _ _).mp h
      rcases hnot with hop | hlow' | hhigh'
      · rw [hsup] at hop
        cases hop
      · omega
      · omega
    rw [if_neg h] at hleaving
    refine ⟨hrefused h, ?_, hleaving⟩
    rw [htake, (offerReply_address _ _).1, hrefused h]
    rfl

/-! ### Bypass and IDLE places (R149 to R151) -/

theorem Ring.forward_in_bypass {r : Ring} (hphase : r.phase ≠ .running) (hsignal : r.signal = true) (c : Cell) :
    r.forward c = { r with place := none, outbound := r.outbound ++ (r.place.toList ++ [c]) } := by
  unfold Ring.forward Ring.send
  rcases r.givePlace_cases with ⟨hplace, h⟩ | ⟨idle, hplace, -, h⟩ | ⟨idle, hplace, -, hlost, h⟩ |
    ⟨idle, body, hplace, hrun, -⟩ | ⟨idle, body, rest, hplace, hrun, -⟩
  · rw [h, hplace]
    simp [← hplace]
  · rw [h, hplace]
    simp
  · simp [hsignal] at hlost
  · exact absurd hrun hphase
  · exact absurd hrun hphase

theorem allButRingKept_mapRing (s : State) (f : Ring → Ring) : AllButRingKept s (s.mapRing f) := ⟨rfl, InnerKept.mapRing s f⟩

theorem exec_idleGenerate (s : State) : exec .idleGenerate s =
    .next (s.whenRunning fun t => if t.ring.link = .down then t.mapRing (·.openPlace idleCell) else t) := rfl

theorem exec_idlePlace (s : State) : exec .idlePlace s = .next (s.mapRing Ring.givePlace) := rfl

/-- Settles O17: bypass sends a cell after the place that stands open; an open place is given by the cases of its rule. -/
theorem bypassAndIdlePlaces : Obligations.BypassAndIdlePlaces := by
  unfold Obligations.BypassAndIdlePlaces
  refine ⟨fun s c placeFirst hwhole hphase => ⟨s.bypass c, ?_, ?_, ?_, fun hsignal => ?_, fun hsignal => ?_⟩,
    fun s c hwhole hphase => ?_, fun s hphase hlink => ⟨_, exec_idleGenerate s, ?_⟩, fun s h => ?_,
    fun s idle hphase hplace => ⟨_, exec_idlePlace s, allButRingKept_mapRing _ _, ?_⟩, fun s idle hphase hplace => ?_,
    fun s hplace => ?_⟩
  · rw [exec_bypassCell c s hwhole, if_neg hphase]
  · rw [exec_cellReceived c placeFirst s hwhole, if_neg hphase]
  · unfold State.bypass
    split
    · exact allButRingKept_mapRing _ _
    · exact ⟨rfl, .refl s⟩
  · rw [State.bypass, if_pos hsignal]
    exact Ring.forward_in_bypass hphase hsignal c
  · rw [State.bypass, hsignal]
    rfl
  · rw [exec_bypassCell c s hwhole, if_pos hphase]
  · rw [whenRunning_running hphase, if_pos hlink]
    exact ⟨allButRingKept_mapRing _ _, rfl⟩
  · rw [exec_idleGenerate, State.whenRunning]
    split
    next hphase => rw [if_neg (h.resolve_left fun hr => hr hphase)]
    next => rfl
  · refine ⟨fun body hslot => ?_, fun body rest hslot hreplies => ?_, fun hslot hreplies => ?_⟩ <;>
      simp [State.mapRing, Ring.givePlace, statusLeaving, byte, *]
  · rw [exec_idlePlace]
    cases hsignal : s.ring.signal <;> simp [State.mapRing, Ring.givePlace, *]
  · rw [exec_idlePlace, State.mapRing, Ring.givePlace, hplace]

end Sys2Proof.Machine
end

section
/-! The judgement of a command (R154): which command a code asks for, what a refused command leaves, and the commands that set one
flag or move one window. -/

namespace Sys2Proof.Machine

/-! ### The judgement (R154) -/

/-- R154: the judgement of a command that a code names. -/
theorem judge_of_code {s : State} {c : Control} {k : Command} (h : Command.ofCode c.command.toNat = some k) : s.judge c =
    if k.unknownTable (TableId.ofCode c.table) = true then (s, Answer.plain .unknown)
    else if k.forbidden (s.classOf c.originator) (TableId.ofCode c.table) = true then (s, Answer.plain .denied)
    else s.work k (s.classOf c.originator) ((TableId.ofCode c.table).getD .setup) c := by
  rw [State.judge, h]

/-- R154, step 3, for a command that takes no table and is open to both classes. -/
theorem judge_open {s : State} {c : Control} {k : Command} (h : Command.ofCode c.command.toNat = some k)
    (htable : k.unknownTable (TableId.ofCode c.table) = false)
    (hclass : k.forbidden (s.classOf c.originator) (TableId.ofCode c.table) = false) :
    s.judge c = s.work k (s.classOf c.originator) ((TableId.ofCode c.table).getD .setup) c := by
  rw [judge_of_code h, htable, hclass]
  rfl

theorem Command.forbidden_of_supervisor (k : Command) (t : Option TableId) : k.forbidden .supervisor t = false := rfl

/-- A command that no table code and no class rules out. -/
def Command.isOpen : Command → Bool
  | .read | .write | .writeIf | .presetSave | .enumerate | .tileReset => false
  | .commit | .stack | .nudge | .presetLoad | .cueAdd | .cueCancel | .cueClear | .strobe | .highlightClear | .blankClear
  | .eventAck => true

theorem judge_isOpen {s : State} {c : Control} {k : Command} (h : Command.ofCode c.command.toNat = some k)
    (hopen : k.isOpen = true) :
    s.judge c = s.work k (s.classOf c.originator) ((TableId.ofCode c.table).getD .setup) c := by
  refine judge_open h ?_ ?_
  · cases k <;> first | rfl | cases hopen
  · unfold Command.forbidden
    cases k <;> first | exact Bool.and_false _ | cases hopen

theorem TableId.ofCode_isSome {n : Nat} (hlow : 1 ≤ n) (hhigh : n ≤ 13) : (TableId.ofCode n).isSome = true := by
  interval_cases n <;> rfl

theorem TableId.ofCode_eq_none {n : Nat} (h : n = 0 ∨ 13 < n) : TableId.ofCode n = none := by
  unfold TableId.ofCode
  split <;> first | omega | rfl

theorem Command.ofCode_eq_none {n : Nat} (h : n = 0 ∨ 17 < n) : Command.ofCode n = none := by
  unfold Command.ofCode
  split <;> first | omega | rfl

theorem index?_of_lt {n k : Nat} (h : k < n) : index? n k = some ⟨k, h⟩ := dif_pos h

theorem index?_val {n : Nat} (i : Fin n) : index? n i.val = some i := dif_pos i.isLt

theorem index?_of_le {n k : Nat} (h : n ≤ k) : index? n k = none := dif_neg (Nat.not_lt.mpr h)

/-! ### Refused commands -/

/-- An answer of RANGE, STALE and the like that comes with the state before. -/
theorem writeIf_refused {s : State} {cls : OrigClass} {t : TableId} {c : Control} (h : (s.writeIf cls t c).2.result ≠ .ok) :
    (s.writeIf cls t c).1 = s := by
  unfold State.writeIf at h ⊢
  split at h
  next n _ =>
    unfold State.writeWindowIf at h ⊢
    dsimp only at h ⊢
    split
    · rfl
    · split
      · rfl
      · split
        · simp_all
        · rfl
  next n _ =>
    unfold State.writeSourceIf at h ⊢
    dsimp only at h ⊢
    split
    · rfl
    · split
      · simp_all
      · rfl
  next => rfl

theorem offerCue_refused {s : State} {cue : Cue} (h : (s.offerCue cue).2.result ≠ .ok) : (s.offerCue cue).1 = s := by
  rcases offerCue_cases s cue with he | ⟨hok, -⟩
  · exact he
  · exact absurd (by rw [State.offerCue, hok]; rfl) h

theorem cueAdd_refused {s : State} {cls : OrigClass} {c : Control} (h : (s.cueAdd cls c).2.result ≠ .ok) :
    (s.cueAdd cls c).1 = s := by
  unfold State.cueAdd at h ⊢
  split
  next => rfl
  next cue _ =>
    split
    · rfl
    · split
      · rfl
      · refine offerCue_refused fun hok => h ?_
        simp_all [Answer.counted]

/-- R134: where no cue goes, the queue is as it was. -/
theorem cueCancel_refused {s : State} {c : Control} (h : (s.cueCancel c).2.result ≠ .ok) : (s.cueCancel c).1 = s := by
  unfold State.cueCancel at h ⊢
  split
  next => rfl
  next hle =>
    rw [if_neg hle] at h
    dsimp only at h ⊢
    have hsub : (s.cues.queue.filter fun d => decide (d.tag.toNat ≠ c.arg1)).Sublist s.cues.queue := List.filter_sublist
    have hkept : s.cues.queue.filter (fun d => decide (d.tag.toNat ≠ c.arg1)) = s.cues.queue := by
      split at h
      next hremoved => exact hsub.eq_of_length_le (Nat.sub_eq_zero_iff_le.mp hremoved)
      next => exact absurd rfl h
    rw [hkept]

/-- R154: a command that is refused in its own checks leaves the tile as it was; a WRITE that fails part way does not. -/
theorem work_refused {s : State} {k : Command} {cls : OrigClass} {t : TableId} {c : Control} (hk : k ≠ .write)
    (h : (s.work k cls t c).2.result ≠ .ok) : (s.work k cls t c).1 = s := by
  cases k
  case read =>
    simp only [State.work, State.read] at h ⊢
    split
    · rfl
    · simp_all
  case write => exact absurd rfl hk
  case writeIf => exact writeIf_refused h
  case commit =>
    simp only [State.work, State.commitCommand] at h ⊢
    split
    next he => exact absurd (by rw [he]; rfl) h
    next he =>
      rw [he] at h
      exact offerCue_refused h
    next => rfl
  case stack =>
    simp only [State.work, State.stackCommand] at h ⊢
    split
    · rfl
    · split
      · rfl
      · split
        · rfl
        · split
          · rfl
          · simp_all [Answer.plain]
  case nudge =>
    simp only [State.work, State.nudgeCommand] at h ⊢
    split
    · rfl
    · split
      · rfl
      · simp_all
  case presetSave =>
    simp only [State.work, State.presetSave] at h ⊢
    split
    · rfl
    · simp_all [Answer.plain]
  case presetLoad =>
    simp only [State.work, State.presetLoad] at h ⊢
    split
    · rfl
    · split
      · simp_all [Answer.plain]
      · rfl
  case cueAdd => exact cueAdd_refused h
  case cueCancel => exact cueCancel_refused h
  case cueClear => exact absurd rfl h
  case strobe =>
    simp only [State.work, State.strobe] at h ⊢
    split
    · rfl
    · simp_all [Answer.plain]
  case highlightClear =>
    simp only [State.work, State.highlightClear] at h ⊢
    split
    · rfl
    · simp_all [Answer.plain]
  case blankClear =>
    simp only [State.work, State.blankClear] at h ⊢
    split
    · rfl
    · simp_all [Answer.plain]
  case eventAck => exact absurd rfl h
  case enumerate =>
    simp only [State.work, State.enumerate] at h ⊢
    split
    · simp_all
    · rfl
  case tileReset => rfl

theorem judge_refused {s : State} {c : Control} (h : (s.judge c).2.result ≠ .ok)
    (hwrite : Command.ofCode c.command.toNat ≠ some .write) : (s.judge c).1 = s := by
  rcases judge_cases s c with ⟨r, he, -⟩ | ⟨k, hk, -, -, he⟩ <;> rw [he] at h ⊢
  exact work_refused (fun hkw => hwrite (hkw ▸ hk)) h

/-- R159: only WINDOWS and SOURCES take a WRITE_IF. -/
theorem writeIf_of_other {s : State} {cls : OrigClass} {t : TableId} {c : Control}
    (h : (t ≠ .windows ∧ t ≠ .sources) ∨ 31 < c.index) : s.writeIf cls t c = (s, Answer.plain .range) := by
  unfold State.writeIf
  split
  next n hn =>
    rcases h with h | h
    · exact absurd rfl h.1
    · rw [index?_of_le (by omega)] at hn
      cases hn
  next n hn =>
    rcases h with h | h
    · exact absurd rfl h.2
    · rw [index?_of_le (by omega)] at hn
      cases hn
  next => rfl

theorem TableId.ofCode_of_other {n : Nat} {t : TableId} (h : TableId.ofCode n = some t) :
    (t = .windows ↔ n = 4) ∧ (t = .sources ↔ n = 3) := by
  unfold TableId.ofCode at h
  split at h <;> cases h <;> simp

/-- Settles O20: a refused command comes with the state before; each refusal is read off the order of judging. -/
theorem refusedCommandChangesNothing : Obligations.RefusedCommandChangesNothing := by
  unfold Obligations.RefusedCommandChangesNothing
  refine ⟨fun s c => judge_refused, fun s c cls hcls => ?_⟩
  subst hcls
  refine ⟨fun h => ?_, fun hcommand htable => ?_, fun hop hcommand => ?_, fun hcommand h => ?_,
    fun hsup hcommand hindex => ?_, fun hcommand harg => ?_, fun hcommand hindex => ?_, fun hcommand hindex => ?_,
    fun hsup hcommand h => ?_⟩
  · have hnone : Command.ofCode c.command.toNat = none := by
      refine Command.ofCode_eq_none (h.imp (fun hz => ?_) id)
      rw [hz]
      rfl
    rw [State.judge, hnone]
    rfl
  · have hnone := TableId.ofCode_eq_none htable
    rcases hcommand with hc | hc | hc
    · rw [judge_of_code (k := .read) (by rw [hc]; rfl), hnone]
      rfl
    · rw [judge_of_code (k := .write) (by rw [hc]; rfl), hnone]
      rfl
    · rw [judge_of_code (k := .writeIf) (by rw [hc]; rfl), hnone]
      rfl
  · rcases hcommand with hc | hc | hc
    · rw [judge_of_code (k := .presetSave) (by rw [hc]; rfl), hop]
      rfl
    · rw [judge_of_code (k := .enumerate) (by rw [hc]; rfl), hop]
      rfl
    · rw [judge_of_code (k := .tileReset) (by rw [hc]; rfl), hop]
      rfl
  · obtain ⟨t, ht⟩ : ∃ t, TableId.ofCode c.table = some t :=
      Option.isSome_iff_exists.mp (TableId.ofCode_isSome (by omega) (by omega))
    obtain ⟨hwindows, hsources⟩ := TableId.ofCode_of_other ht
    rw [judge_open (k := .writeIf) (by rw [hcommand]; rfl) (by rw [ht]; rfl) (Bool.and_false _), ht]
    refine writeIf_of_other (h.imp (fun hother => ⟨?_, ?_⟩) And.right)
    · exact fun he => hother.2.2.2 (hwindows.mp he)
    · exact fun he => hother.2.2.1 (hsources.mp he)
  · rw [judge_open (k := .presetSave) (by rw [hcommand]; rfl) rfl (by rw [hsup]; rfl)]
    simp only [State.work, State.presetSave, index?_of_le (show 4 ≤ c.index by omega)]
    rfl
  · rw [judge_isOpen (k := .cueCancel) (by rw [hcommand]; rfl) rfl]
    exact if_pos harg
  · rw [judge_isOpen (k := .strobe) (by rw [hcommand]; rfl) rfl]
    simp only [State.work, State.strobe, index?_of_le (show 8 ≤ c.index by omega)]
    rfl
  · rcases hcommand with hc | hc
    · rw [judge_isOpen (k := .highlightClear) (by rw [hc]; rfl) rfl]
      simp only [State.work, State.highlightClear, index?_of_le (show 32 ≤ c.index by omega)]
      rfl
    · rw [judge_isOpen (k := .blankClear) (by rw [hc]; rfl) rfl]
      simp only [State.work, State.blankClear, index?_of_le (show 32 ≤ c.index by omega)]
      rfl
  · rw [judge_enumerate hcommand, hsup, if_neg (by decide), State.enumerate, if_neg]
    · rfl
    · rw [enumerateTaken_iff]
      omega

/-! ### Commands that set one flag (R9, R13, R134, R139) -/

theorem countP_add_length_filter_not {α : Type} (p : α → Bool) (l : List α) :
    l.countP p + (l.filter fun a => !p a).length = l.length := by
  rw [← List.countP_eq_length_filter, List.length_eq_countP_add_countP p]
  simp

/-- Settles O26: each command's own work. -/
theorem flagCommands : Obligations.FlagCommands := by
  unfold Obligations.FlagCommands
  refine fun s c => ⟨fun hcommand hindex => ?_, fun i hcommand hindex => ?_, fun n hcommand hindex => ?_,
    fun n hcommand hindex => ?_, fun hcommand harg => ?_, fun hcommand => ?_⟩
  · rw [judge_isOpen (k := .commit) (by rw [hcommand]; rfl) rfl]
    simp only [State.work, State.commitCommand, hindex]
    rfl
  · rw [judge_isOpen (k := .strobe) (by rw [hcommand]; rfl) rfl]
    simp only [State.work, State.strobe, hindex, index?_val]
    rfl
  · rw [judge_isOpen (k := .highlightClear) (by rw [hcommand]; rfl) rfl]
    simp only [State.work, State.highlightClear, hindex, index?_val]
    rfl
  · rw [judge_isOpen (k := .blankClear) (by rw [hcommand]; rfl) rfl]
    simp only [State.work, State.blankClear, hindex, index?_val]
    rfl
  · rw [judge_isOpen (k := .cueCancel) (by rw [hcommand]; rfl) rfl]
    simp only [State.work, State.cueCancel, if_neg (Nat.not_lt.mpr harg)]
    have hcount := countP_add_length_filter_not (fun d : Cue => decide (d.tag.toNat = c.arg1)) s.cues.queue
    have hfilter : (s.cues.queue.filter fun d => !decide (d.tag.toNat = c.arg1)) =
        s.cues.queue.filter fun d => decide (d.tag.toNat ≠ c.arg1) := List.filter_congr fun d _ => by simp
    rw [hfilter] at hcount
    have hremoved : s.cues.queue.length - (s.cues.queue.filter fun d => decide (d.tag.toNat ≠ c.arg1)).length =
        s.cues.queue.countP (fun d => decide (d.tag.toNat = c.arg1)) := by omega
    rw [hremoved]
    refine ⟨trivial, ?_, ?_⟩
    · split
      next hzero => exact hzero.symm
      next => rfl
    · have hnone : s.cues.queue.countP (fun d => decide (d.tag.toNat = c.arg1)) = 0 ↔
          ∀ d ∈ s.cues.queue, d.tag.toNat ≠ c.arg1 := by simp [List.countP_eq_zero]
      rw [← hnone]
      split
      next hzero => exact ⟨fun _ => hzero, fun _ => rfl⟩
      next hzero => exact ⟨fun h => (Result.noConfusion h), fun h => absurd h hzero⟩
  · rw [judge_isOpen (k := .cueClear) (by rw [hcommand]; rfl) rfl]
    rfl

/-! ### NUDGE (R160) -/

/-- R160: the clamp on one axis. -/
theorem nudged_spec (pos : Nat) (d : Int) {size limit : Nat} (h : size ≤ limit) :
    (0 ≤ pos + d → pos + d + size ≤ limit → (nudged pos d size limit : Int) = pos + d) ∧
    (pos + d < 0 → nudged pos d size limit = 0) ∧
    ((limit : Int) < pos + d + size → nudged pos d size limit = limit - size) := by
  unfold nudged
  dsimp only
  split
  · omega
  · split <;> omega

/-- A window that is not on the list is not taken off it. -/
theorem without_of_not_mem {n : Fin 32} {l : List (Fin 32)} (h : n ∉ l) : without n l = l :=
  List.filter_eq_self.mpr fun _ hm => decide_eq_true fun he => h (he ▸ hm)

/-- R7: a write that leaves the window enabled or disabled, and in its tier, leaves the list. -/
theorem relist_of_same {t u : Table WinRec 32} {n : Fin 32} {l : List (Fin 32)} (hl : ListOf t l)
    (henabled : (u.get n).enabled = (t.get n).enabled) (hpinned : (u.get n).pinned = (t.get n).pinned) :
    relist u n (t.get n) l = l := by
  obtain ⟨-, hmem, -⟩ := hl
  simp only [relist]
  split
  next h => exact without_of_not_mem fun hn => by simp [(hmem n).mp hn, henabled] at h
  next h => rw [if_pos ⟨by simpa [henabled] using h, hpinned.symm⟩]

/-- Settles O30: the index and class checks, then the shadow write of the moved record. -/
theorem nudgeClamps : Obligations.NudgeClamps := by
  unfold Obligations.NudgeClamps
  intro s c hcommand
  rw [judge_isOpen (k := .nudge) (by rw [hcommand]; rfl) rfl]
  simp only [State.work, State.nudgeCommand]
  refine ⟨fun hindex => ?_, fun n hindex hop hpinned => ?_, fun n r dx dy hindex hr hok hnot hdx hdy => ?_⟩
  · rw [index?_of_le hindex]
    rfl
  · rw [hindex, index?_val]
    exact if_pos ⟨hop, hpinned⟩
  · subst hr
    have hdenied : ¬(s.classOf c.originator = .operator ∧ s.shadowPinned n = true) := hnot
    rw [hindex, index?_val]
    simp only [if_neg hdenied]
    obtain ⟨-, -, hw, -, hh, -⟩ := (WinRec.ok_iff _).mp hok
    obtain ⟨hx, hxlow, hxhigh⟩ := nudged_spec (s.scene.shadow.get n).x dx hw
    obtain ⟨hy, hylow, hyhigh⟩ := nudged_spec (s.scene.shadow.get n).y dy hh
    have hdx : signed12 c.arg1 = dx := hdx.symm
    have hdy : signed12 c.arg2 = dy := hdy.symm
    rw [hdx, hdy]
    refine ⟨{ s with scene := s.scene.nudge n dx dy }, nudged (s.scene.shadow.get n).x dx (s.scene.shadow.get n).w 32768,
      nudged (s.scene.shadow.get n).y dy (s.scene.shadow.get n).h 16384, ?_, rfl, fun hl => ?_, nudged_add_le _ _ hw,
      nudged_add_le _ _ hh, hx, hxlow, hxhigh, hy, hylow, hyhigh⟩
    · simp [Scene.nudge, Scene.writeShadow]
    · refine relist_of_same hl ?_ ?_ <;> rw [Table.get_set_self]

end Sys2Proof.Machine
end

section
/-! The table writes (R3, R46, R48, R158, R159): the checks in their order, and what a written record changes. -/

namespace Sys2Proof.Machine

/-! ### The shadow list after a write (R7, R14) -/

/-- Window n at the front of its tier: the other windows in their order, pinned in front. -/
theorem enterFront_spec {t : Table WinRec 32} {n : Fin 32} {l : List (Fin 32)}
    (h : (without n l).Pairwise fun a b => (t.get b).pinned = true → (t.get a).pinned = true) :
    ∃ front back, enterFront t n l = front ++ n :: back ∧ front ++ back = without n l ∧
      ((t.get n).pinned = true → front = []) ∧
      ((t.get n).pinned = false → (∀ m ∈ front, (t.get m).pinned = true) ∧ ∀ m ∈ back, (t.get m).pinned = false) := by
  have htiers := ListOf.eq_tiers h
  unfold enterFront
  dsimp only
  split
  next hpinned => exact ⟨[], _, rfl, htiers, fun _ => rfl, fun hn => by simp [hpinned] at hn⟩
  next hpinned =>
    exact ⟨tierOf t true (without n l), tierOf t false (without n l), rfl, htiers, fun hn => absurd hn hpinned,
      fun _ => ⟨fun m hm => (mem_tierOf.mp hm).2, fun m hm => (mem_tierOf.mp hm).2⟩⟩

/-- The other windows of a list stand in their tiers, whatever becomes of window n's record. -/
theorem ListOf.without_pairwise {t u : Table WinRec 32} {l : List (Fin 32)} {n : Fin 32} (h : ListOf t l)
    (hother : ∀ m, m ≠ n → u.get m = t.get m) :
    (without n l).Pairwise fun a b => (u.get b).pinned = true → (u.get a).pinned = true := by
  refine (h.2.2.sublist List.filter_sublist).imp_of_mem fun {a b} ha hb hab => ?_
  rw [hother a (mem_without.mp ha).2, hother b (mem_without.mp hb).2]
  exact hab

/-! ### Window records (R3, R159) -/

theorem recordDenied_iff (s : State) (cls : OrigClass) (n : Fin 32) (bytes : List Byte) :
    s.recordDenied cls n bytes = true ↔ cls = .operator ∧
      ((s.scene.shadow.get n).pinned = true ∨ deliveredPinned bytes ≠ (s.scene.shadow.get n).pinned) := by
  simp [State.recordDenied, State.shadowPinned]

/-- A record that is not refused by class is written when it is legal. -/
theorem writeWindow_ok {s : State} {cls : OrigClass} {n : Fin 32} {bytes : List Byte} {r : WinRec}
    (hdenied : s.recordDenied cls n bytes = false) (hr : WinRec.unpack bytes = some r) (hok : r.ok = true) :
    s.writeWindow cls n bytes = .written { s with scene := s.scene.writeShadow n r } := by
  simp [State.writeWindow, hdenied, hr, hok]

theorem writeWindow_range {s : State} {cls : OrigClass} {n : Fin 32} {bytes : List Byte}
    (hdenied : s.recordDenied cls n bytes = false) (h : ∀ r, WinRec.unpack bytes = some r → r.ok = false) :
    s.writeWindow cls n bytes = .failed .range := by
  cases hr : WinRec.unpack bytes with
  | none => simp [State.writeWindow, hdenied, hr]
  | some r => simp [State.writeWindow, hdenied, hr, h r hr]

theorem writeWindow_denied {s : State} {cls : OrigClass} {n : Fin 32} {bytes : List Byte}
    (hdenied : s.recordDenied cls n bytes = true) : s.writeWindow cls n bytes = .failed .denied := if_pos hdenied

/-- R159: WRITE_IF of a table, from either class. -/
theorem judge_writeIf {s : State} {c : Control} {t : TableId} (hcommand : c.command = 3)
    (ht : TableId.ofCode c.table = some t) : s.judge c = s.writeIf (s.classOf c.originator) t c := by
  rw [judge_open (k := .writeIf) (by rw [hcommand]; rfl) (by rw [ht]; rfl) (Bool.and_false _), ht]
  rfl

theorem judge_writeIf_windows {s : State} {c : Control} {n : Fin 32} (hcommand : c.command = 3) (htable : c.table = 4)
    (hindex : c.index = n.val) :
    s.judge c = s.writeWindowIf (s.classOf c.originator) n c.arg1 (c.payload.take 80) := by
  rw [judge_writeIf (t := .windows) hcommand (by rw [htable]; rfl)]
  simp only [State.writeIf, hindex, index?_val]

theorem judge_writeIf_sources {s : State} {c : Control} {n : Fin 32} (hcommand : c.command = 3) (htable : c.table = 3)
    (hindex : c.index = n.val) : s.judge c = s.writeSourceIf n c.arg1 (c.payload.take 12) := by
  rw [judge_writeIf (t := .sources) hcommand (by rw [htable]; rfl)]
  simp only [State.writeIf, hindex, index?_val]

/-- R158: the judgement of a WRITE that its class allows. -/
theorem judge_write {s : State} {c : Control} {t : TableId} (hcommand : c.command = 2) (ht : TableId.ofCode c.table = some t)
    (hclass : ¬(s.classOf c.originator = .operator ∧ t.supervisorOnly = true)) :
    s.judge c = s.write (s.classOf c.originator) t c := by
  rw [judge_open (k := .write) (by rw [hcommand]; rfl) (by rw [ht]; rfl), ht]
  · rfl
  · rw [ht, ← Bool.not_eq_true]
    simpa [Command.forbidden] using hclass

/-- R158: a WRITE of one window record goes to the record's own check and write. -/
theorem judge_write_window {s : State} {c : Control} {n : Fin 32} (hcommand : c.command = 2) (hcount : c.count = 1)
    (htable : c.table = 4) (hindex : c.index = n.val) :
    (∀ s', s.writeWindow (s.classOf c.originator) n (c.payload.take 80) = .written s' →
      s.judge c = (s', Answer.counted .ok 1)) ∧
    (∀ r, s.writeWindow (s.classOf c.originator) n (c.payload.take 80) = .failed r → s.judge c = (s, Answer.counted r 0)) := by
  have hn : indexOf 32 n.val = n := Fin.ofNat_val_eq_self n
  have hrange : ¬(TableId.windows.records ≤ c.index ∨ TableId.windows.perPayload < c.count) := by
    simp [TableId.records, TableId.perPayload, TableId.recordSize]
    omega
  rw [judge_write (t := .windows) hcommand (by rw [htable]; rfl) (by simp [TableId.supervisorOnly]), State.write,
    if_neg (by simp [TableId.readOnly]), if_neg hrange, if_neg (by simp), hcount]
  simp only [State.writeRecords, State.writeRecord, TableId.recordSize, hindex, hn]
  refine ⟨fun s' h => ?_, fun r h => ?_⟩ <;> rw [h]

/-- R7: the list after a shadow write. -/
theorem writeShadow_list (sc : Scene) (n : Fin 32) (r : WinRec) : (sc.writeShadow n r).shadowList =
    relist (sc.writeShadow n r).shadow n (sc.shadow.get n) sc.shadowList := rfl

/-- Settles O27: the checks in their order; then the write of the record, with the list by Table 1-3. -/
theorem windowWrites : Obligations.WindowWrites := by
  unfold Obligations.WindowWrites
  intro s n c old bytes denied hlist htable hindex hold hbytes hdenied
  subst hold hbytes
  rw [← recordDenied_iff] at hdenied
  have hallowed : ¬denied → s.recordDenied (s.classOf c.originator) n (c.payload.take 80) = false := fun h => by
    rw [← Bool.not_eq_true]
    exact fun hd => h (hdenied.mpr hd)
  have hif := fun hcommand : c.command = 3 => judge_writeIf_windows (s := s) hcommand htable hindex
  have hone := fun (hcommand : c.command = 2) (hcount : c.count = 1) =>
    judge_write_window (s := s) hcommand hcount htable hindex
  refine ⟨fun hcommand hd => ?_, fun hcommand hd hrev => ?_, fun hcommand hd hrev hr => ?_, fun hcommand hcount hd => ?_,
    fun hcommand hcount hd hr => ?_, fun r hcommand hd hr hok => ?_⟩
  · rw [hif hcommand]
    exact if_pos (hdenied.mp hd)
  · rw [hif hcommand]
    simp only [State.writeWindowIf, hallowed hd, if_pos hrev]
    rfl
  · rw [hif hcommand]
    simp only [State.writeWindowIf, hallowed hd, if_neg (not_not.mpr hrev), writeWindow_range (hallowed hd) hr]
    rfl
  · exact (hone hcommand hcount).2 _ (writeWindow_denied (hdenied.mp hd))
  · exact (hone hcommand hcount).2 _ (writeWindow_range (hallowed hd) hr)
  · have hwrite := writeWindow_ok (hallowed hd) hr hok
    have hrev : ((s.scene.writeShadow n r).shadow.get n).revision = ((s.scene.shadow.get n).revision + 1) % 65536 := by
      simp [Scene.writeShadow, wrapInc]
    have hself : (s.scene.writeShadow n r).shadow.get n =
        { r with revision := ((s.scene.shadow.get n).revision + 1) % 65536 } := Table.get_set_self _ _ _
    have hother : ∀ m, m ≠ n → (s.scene.writeShadow n r).shadow.get m = s.scene.shadow.get m := fun m hm =>
      Table.get_set_of_ne _ _ hm
    refine ⟨{ s with scene := s.scene.writeShadow n r }, ?_, rfl, hself, hother, fun henabled hpinned => ?_,
      fun henabled => ?_, fun henabled hnew => ?_⟩
    · rcases hcommand with ⟨hcommand, hstands⟩ | ⟨hcommand, hcount⟩
      · rw [hif hcommand]
        simp only [State.writeWindowIf, hallowed hd, if_neg (not_not.mpr hstands), hwrite, hrev, hcommand, if_true]
        rfl
      · rw [(hone hcommand hcount).1 _ hwrite, hcommand]
        rfl
    · rw [writeShadow_list]
      exact relist_of_same hlist (by rw [hself]; exact henabled) (by rw [hself]; exact hpinned)
    · rw [writeShadow_list, relist, hself]
      exact if_pos henabled
    · have hlisted : (s.scene.writeShadow n r).shadowList =
          enterFront (s.scene.writeShadow n r).shadow n s.scene.shadowList := by
        rw [writeShadow_list, relist, hself]
        refine (if_neg (by simp [henabled])).trans (if_neg fun h => ?_)
        rcases hnew with hnew | hnew
        · simp [hnew] at h
        · exact hnew h.2.symm
      obtain ⟨front, back, hsplit, hrest, hfront, htiers⟩ := enterFront_spec (hlist.without_pairwise hother)
      rw [hself] at hfront htiers
      have hkept : ∀ m ∈ front ++ back, (s.scene.writeShadow n r).shadow.get m = s.scene.shadow.get m := fun m hm =>
        hother m (mem_without.mp (hrest ▸ hm)).2
      refine ⟨front, back, hlisted.trans hsplit, hrest, hfront, fun hunpinned => ⟨fun m hm => ?_, fun m hm => ?_⟩⟩
      · rw [← hkept m (List.mem_append_left _ hm)]
        exact (htiers hunpinned).1 m hm
      · rw [← hkept m (List.mem_append_right _ hm)]
        exact (htiers hunpinned).2 m hm

/-! ### Source records (R46, R48) -/

theorem writeSourceRecord_ok {s : State} {n : Fin 32} {bytes : List Byte} {r : SourceRec}
    (hr : SourceRec.unpack bytes = some r) (hok : r.ok = true) : s.writeSourceRecord n bytes = .written (s.writeSource n r) := by
  simp [State.writeSourceRecord, hr, hok]

theorem writeSourceRecord_range {s : State} {n : Fin 32} {bytes : List Byte}
    (h : ∀ r, SourceRec.unpack bytes = some r → r.ok = false) : s.writeSourceRecord n bytes = .failed .range := by
  cases hr : SourceRec.unpack bytes with
  | none => simp [State.writeSourceRecord, hr]
  | some r => simp [State.writeSourceRecord, hr, h r hr]

theorem rewritten_get (m : StoreManager) (n k : Fin 32) : (m.rewritten n).wins.get k =
    if (m.wins.get k).feeding = some n then (m.wins.get k).switched (some n) else m.wins.get k :=
  StoreManager.mapWins_get _ _ _

/-- R86: a window switched to the source that feeds it keeps all but the roles of its buffers. -/
theorem switched_of_feeding {w : WinStore} {n : Fin 32} (h : w.feeding = some n) :
    w.switched (some n) = { w with bufs := relabel (.rearmed w.bufs.length) w.bufs } := by
  unfold WinStore.switched
  split
  next hempty =>
    have hnil : relabel (.rearmed w.bufs.length) w.bufs = w.bufs := by rw [hempty]; rfl
    rw [hnil]
  next => rw [← h]; rfl

/-- Settles O28: the checks in their order; then the write of the record, with the buffers re-armed role by role. -/
theorem sourceRewrites : Obligations.SourceRewrites := by
  unfold Obligations.SourceRewrites
  intro s n c old hcommand htable hindex hold
  subst hold
  rw [judge_writeIf_sources hcommand htable hindex]
  refine ⟨fun hrev => if_pos hrev, fun hrev hr => ?_, fun r hrev hr hok => ⟨s.writeSource n r, ?_, rfl, fun m hm => ?_,
    Table.get_set_self _ _ _, rfl, fun k => ?_⟩⟩
  · simp only [State.writeSourceIf, if_neg (not_not.mpr hrev), writeSourceRecord_range hr]
    rfl
  · simp only [State.writeSourceIf, if_neg (not_not.mpr hrev), writeSourceRecord_ok hr hok]
    simp [State.writeSource, wrapInc]
  · exact Table.get_set_of_ne _ _ hm
  · have hwin : (s.writeSource n r).store.wins.get k = _ := rewritten_get s.store n k
    rw [hwin]
    split
    next hfed =>
      rw [switched_of_feeding hfed]
      refine ⟨rfl, fun h => absurd hfed h, by simp [relabel], fun _ i b hb =>
        ⟨{ b with role := b.role.rearmed (s.store.wins.get k).bufs.length }, by simp [relabel, hb], rfl, rfl, ?_⟩⟩
      cases b.role <;> simp [Role.rearmed, Role.isFilling, spareRole]
    next hfed => exact ⟨rfl, fun _ => rfl, rfl, fun h => absurd h hfed⟩

end Sys2Proof.Machine
end

section
/-! WRITE (R155, R158): the records of a payload one by one, the counters, and what a record of each table does. -/

namespace Sys2Proof.Machine

/-! ### The records of a WRITE, one by one (R158) -/

theorem writeWindow_ne_ok {s : State} {cls : OrigClass} {n : Fin 32} {bytes : List Byte} {r : Result}
    (h : s.writeWindow cls n bytes = .failed r) : r ≠ .ok := by
  unfold State.writeWindow at h
  split at h
  · cases h
    decide
  · split at h
    · cases h
      decide
    · split at h <;> cases h
      decide

theorem writeSourceRecord_ne_ok {s : State} {n : Fin 32} {bytes : List Byte} {r : Result}
    (h : s.writeSourceRecord n bytes = .failed r) : r ≠ .ok := by
  unfold State.writeSourceRecord at h
  split at h
  · cases h
    decide
  · split at h <;> cases h
    decide

/-- A record that fails is not OK. -/
theorem writeRecord_ne_ok {s : State} {cls : OrigClass} {t : TableId} {i : Nat} {bytes : List Byte} {r : Result}
    (h : s.writeRecord cls t i bytes = .failed r) : r ≠ .ok := by
  cases t
  case windows => exact writeWindow_ne_ok h
  case sources => exact writeSourceRecord_ne_ok h
  case setup =>
    simp only [State.writeRecord, State.writeSetup] at h
    split at h <;> cases h
    decide
  case origins =>
    simp only [State.writeRecord, State.writeOrigin] at h
    split at h
    · cases h
      decide
    · split at h <;> cases h
      decide
  case triggers =>
    simp only [State.writeRecord, State.writeTrigger] at h
    split at h
    · cases h
      decide
    · split at h <;> cases h
      decide
  case glyphs => cases h
  all_goals
    cases h
    decide

/-- The states of a WRITE, one after the other, from the first on. -/
def statesFrom (s : State) (rest : Nat → State) : Nat → State
  | 0 => s
  | j + 1 => rest j

/-- R158: the records of a WRITE from index i on: each on the state that the one before left, up to the first that fails. -/
theorem writeRecords_spec (cls : OrigClass) (t : TableId) (left i : Nat) (bytes : List Byte) (done : Nat) (s : State)
    (hi : i < t.records) : ∃ (n : Nat) (r : Result) (state : Nat → State),
      State.writeRecords cls t left i bytes done s = (state n, ⟨r, done + n, 0, 0, []⟩) ∧ state 0 = s ∧
      (∀ j, j < n → (state j).writeRecord cls t ((i + j) % t.records)
        ((bytes.drop (j * t.recordSize)).take t.recordSize) = .written (state (j + 1))) ∧
      ((r = .ok ∧ n = left) ∨ (r ≠ .ok ∧ n < left ∧
        (state n).writeRecord cls t ((i + n) % t.records) ((bytes.drop (n * t.recordSize)).take t.recordSize) =
          .failed r)) := by
  induction left generalizing i bytes done s with
  | zero => exact ⟨0, .ok, fun _ => s, rfl, rfl, fun j hj => absurd hj (Nat.not_lt_zero j), .inl ⟨rfl, rfl⟩⟩
  | succ left ih =>
    have hpos : 0 < t.records := Nat.zero_lt_of_lt hi
    cases hwrite : s.writeRecord cls t i (bytes.take t.recordSize) with
    | failed r =>
      refine ⟨0, r, fun _ => s, by simp [State.writeRecords, hwrite, Answer.counted], rfl,
        fun j hj => absurd hj (Nat.not_lt_zero j), .inr ⟨writeRecord_ne_ok hwrite, Nat.succ_pos _, ?_⟩⟩
      simpa [Nat.mod_eq_of_lt hi] using hwrite
    | written s' =>
      obtain ⟨n, r, state, hresult, hfirst, hsteps, hend⟩ := ih ((i + 1) % t.records) (bytes.drop t.recordSize) (done + 1) s'
        (Nat.mod_lt _ hpos)
      have hindex : ∀ j, ((i + 1) % t.records + j) % t.records = (i + (j + 1)) % t.records := fun j => by
        rw [Nat.mod_add_mod, Nat.add_assoc, Nat.add_comm 1 j]
      have hdrop : ∀ j, (bytes.drop t.recordSize).drop (j * t.recordSize) = bytes.drop ((j + 1) * t.recordSize) := fun j => by
        rw [List.drop_drop, Nat.succ_mul, Nat.add_comm]
      simp only [hindex, hdrop] at hsteps hend
      refine ⟨n + 1, r, statesFrom s state, ?_, rfl, fun j hj => ?_, ?_⟩
      · simp only [State.writeRecords, hwrite, hresult, statesFrom]
        rw [Nat.add_assoc, Nat.add_comm 1 n]
      · cases j with
        | zero => simpa [statesFrom, hfirst, Nat.mod_eq_of_lt hi] using hwrite
        | succ j => exact hsteps j (Nat.lt_of_succ_lt_succ hj)
      · exact hend.imp (fun h => ⟨h.1, by rw [h.2]⟩) fun h => ⟨h.1, Nat.succ_lt_succ h.2.1, h.2.2⟩

/-! ### WRITE of COUNTERS (R158) -/

theorem counterMask_testBit (arg : Nat) {i : Nat} (hi : i < 6) :
    (counterMask arg).testBit i = (decide (arg % 64 = 0) || arg.testBit i) := by
  unfold counterMask
  split
  next h =>
    rw [decide_eq_true h, Bool.true_or]
    interval_cases i <;> rfl
  next h =>
    rw [decide_eq_false h, Bool.false_or, show (64 : Nat) = 2 ^ 6 from rfl, Nat.testBit_mod_two_pow, decide_eq_true hi,
      Bool.true_and]

theorem zeroCounters_eq (s : State) (arg : Nat) {named : Nat → Bool}
    (hnamed : ∀ i, named i = (decide (arg % 64 = 0) || arg.testBit i)) : s.zeroCounters arg =
      ({ s with
          ring := { s.ring with
            cellsReceived := if named 0 = true then 0 else s.ring.cellsReceived
            checkErrors := if named 1 = true then 0 else s.ring.checkErrors
            alignLosses := if named 2 = true then 0 else s.ring.alignLosses
            controlTaken := if named 3 = true then 0 else s.ring.controlTaken
            repliesDropped := if named 4 = true then 0 else s.ring.repliesDropped }
          timer := { s.timer with slip := if named 5 = true then 0 else s.timer.slip } },
        ⟨.ok, (List.range 6).countP named, 0, 0, []⟩) := by
  have hbit : ∀ i, i < 6 → (counterMask arg).testBit i = named i := fun i hi => by
    rw [hnamed, counterMask_testBit arg hi]
  have hcount : ((List.range 6).filter fun i => (counterMask arg).testBit i).length = (List.range 6).countP named := by
    rw [← List.countP_eq_length_filter]
    exact List.countP_congr fun i hi => by rw [hbit i (List.mem_range.mp hi)]
  simp only [State.zeroCounters, zeroed, hcount, hbit 0 (by decide), hbit 1 (by decide), hbit 2 (by decide),
    hbit 3 (by decide), hbit 4 (by decide), hbit 5 (by decide), Answer.counted]

/-! ### What a record does, table by table -/

theorem writeOrigin_eq (s : State) (i : Fin 16) (bytes : List Byte) : s.writeOrigin i bytes =
    if byteAt bytes 0 = 1 then .written { s with cmd := { s.cmd with origins := s.cmd.origins.set i .supervisor } }
    else if byteAt bytes 0 = 0 ∧ i ≠ 0
      then .written { s with cmd := { s.cmd with origins := s.cmd.origins.set i .operator } }
    else .failed .range := by
  have hone : (1 : Byte).toNat = 1 := rfl
  have hzero : (0 : Byte).toNat = 0 := rfl
  unfold State.writeOrigin
  split
  next h =>
    have hcode1 : byteAt bytes 0 ≠ 1 := fun he => by
      rw [he, hone] at h
      cases h
    have hcode0 : byteAt bytes 0 ≠ 0 := fun he => by
      rw [he, hzero] at h
      cases h
    rw [if_neg hcode1, if_neg fun hz => hcode0 hz.1]
  next c h =>
    rcases hcode : (byteAt bytes 0).toNat with _ | _ | n <;> rw [hcode] at h <;> cases h
    · have hb : byteAt bytes 0 = 0 := BitVec.eq_of_toNat_eq hcode
      by_cases hi : i = 0 <;> simp [hb, hi]
    · have hb : byteAt bytes 0 = 1 := BitVec.eq_of_toNat_eq hcode
      simp [hb]

/-- R159: with the revision that stands, WRITE_IF of a source record does what its check and write do. -/
theorem writeSourceIf_of_stands {s t : State} {n : Fin 32} {expected : Nat} {bytes : List Byte} {a : Answer}
    (hrev : (s.src.records.get n).revision = expected) (h : s.writeSourceIf n expected bytes = (t, a)) :
    s.writeSourceRecord n bytes = if a.result = .ok then .written t else .failed a.result := by
  rw [State.writeSourceIf, if_neg (not_not.mpr hrev)] at h
  cases hwrite : s.writeSourceRecord n bytes with
  | written s' =>
    rw [hwrite] at h
    cases h
    rfl
  | failed r =>
    rw [hwrite] at h
    cases h
    exact (if_neg (writeSourceRecord_ne_ok hwrite)).symm

theorem writeWindowIf_of_stands {s t : State} {cls : OrigClass} {n : Fin 32} {expected : Nat} {bytes : List Byte} {a : Answer}
    (hrev : (s.scene.shadow.get n).revision = expected) (h : s.writeWindowIf cls n expected bytes = (t, a)) :
    s.writeWindow cls n bytes = if a.result = .ok then .written t else .failed a.result := by
  rw [State.writeWindowIf] at h
  cases hdenied : s.recordDenied cls n bytes with
  | true =>
    rw [hdenied] at h
    cases h
    exact writeWindow_denied hdenied
  | false =>
    rw [hdenied, if_neg (by decide), if_neg (not_not.mpr hrev)] at h
    cases hwrite : s.writeWindow cls n bytes with
    | written s' =>
      rw [hwrite] at h
      cases h
      rfl
    | failed r =>
      rw [hwrite] at h
      cases h
      exact (if_neg (writeWindow_ne_ok hwrite)).symm

/-- R155: a table that is read only is open to both classes. -/
theorem TableId.readOnly_open {t : TableId} (h : t.readOnly = true) : t.supervisorOnly = false := by
  cases t <;> first | rfl | cases h

/-- Settles O29: the checks in the model's order, the run of the records, and each table's own check and write. -/
theorem writeTables : Obligations.WriteTables := by
  unfold Obligations.WriteTables
  refine ⟨fun s c t cls hcommand ht hcls => ?_, fun s cls bytes => ⟨fun r hr => ?_, fun i => ?_, fun i => ?_, fun i h => ?_,
    fun i r hr hok => ?_, fun n c u a hcommand htable hindex hrev hbytes hjudge => ?_,
    fun n c u a hcommand htable hindex hcls hrev hbytes hjudge => ?_⟩⟩
  · subst hcls
    refine ⟨fun ⟨hop, hsup⟩ => ?_, fun hreadOnly => ?_, fun hclass hreadOnly =>
      ⟨fun hrange => ?_, fun hindex hcount hcounters => ?_, fun hindex hcount hcounters named hnamed => ?_⟩⟩
    · rw [judge_of_code (k := .write) (by rw [hcommand]; rfl), ht, hop]
      simp [Command.unknownTable, Command.forbidden, hsup, Answer.plain]
    · rw [judge_write hcommand ht (by simp [TableId.readOnly_open hreadOnly])]
      exact if_pos hreadOnly
    · rw [judge_write hcommand ht hclass, State.write, hreadOnly, if_neg (by decide)]
      exact if_pos hrange
    · have hrange : ¬(t.records ≤ c.index ∨ t.perPayload < c.count) :=
        not_or.mpr ⟨Nat.not_le.mpr hindex, Nat.not_lt.mpr hcount⟩
      rw [judge_write hcommand ht hclass, State.write, hreadOnly, if_neg (by decide), if_neg hrange, if_neg hcounters]
      obtain ⟨n, r, state, hresult, hfirst, hsteps, hend⟩ :=
        writeRecords_spec (s.classOf c.originator) t c.count c.index c.payload 0 s hindex
      exact ⟨n, r, state, fun j => (c.payload.drop (j * t.recordSize)).take t.recordSize,
        by rw [hresult, Nat.zero_add], hfirst, fun _ => rfl, hsteps, hend⟩
    · subst hcounters
      have hrange : ¬(TableId.counters.records ≤ c.index ∨ TableId.counters.perPayload < c.count) := by
        simp [TableId.records, TableId.perPayload, TableId.recordSize]
        omega
      rw [judge_write hcommand ht hclass, State.write, hreadOnly, if_neg (by decide), if_neg hrange, if_pos rfl]
      exact zeroCounters_eq s c.arg1 hnamed
  · subst hr
    rfl
  · have hi : indexOf 16 i.val = i := Fin.ofNat_val_eq_self i
    rw [State.writeRecord, hi, writeOrigin_eq]
  · have hi : indexOf 128 i.val = i := Fin.ofNat_val_eq_self i
    rw [State.writeRecord, hi]
    rfl
  · have hi : indexOf 8 i.val = i := Fin.ofNat_val_eq_self i
    rw [State.writeRecord, hi, State.writeTrigger]
    cases hr : Trigger.unpack bytes with
    | none => rfl
    | some r => simp [h r hr]
  · have hi : indexOf 8 i.val = i := Fin.ofNat_val_eq_self i
    rw [State.writeRecord, hi, State.writeTrigger, hr]
    exact if_pos hok
  · have hn : indexOf 32 n.val = n := Fin.ofNat_val_eq_self n
    rw [judge_writeIf_sources hcommand htable hindex, ← hbytes] at hjudge
    rw [State.writeRecord, hn]
    exact writeSourceIf_of_stands hrev.symm hjudge
  · have hn : indexOf 32 n.val = n := Fin.ofNat_val_eq_self n
    rw [judge_writeIf_windows hcommand htable hindex, ← hbytes, ← hcls] at hjudge
    rw [State.writeRecord, hn]
    exact writeWindowIf_of_stands hrev.symm hjudge

end Sys2Proof.Machine
end

section
/-! The Scene Controller's actions (R8, R14 to R18): RAISE, SOURCE, RECALL, the preset commands, and STACK with its four
operations inside a tier. -/

namespace Sys2Proof.Machine

/-! ### RAISE and SOURCE (R14, R15) -/

theorem raisedIn_raised {t : Table WinRec 32} {l : List (Fin 32)} (h : ListOf t l) (n : Fin 32) :
    RaisedIn t n l (raised t n l) := by
  unfold RaisedIn raised
  refine ⟨fun hn => if_neg (by simpa using hn), fun hn => ?_⟩
  rw [if_pos (by simpa using hn)]
  exact enterFront_spec (h.without_pairwise fun _ _ => rfl)

theorem sourceSwitches_iff (sc : Scene) (n src : Fin 32) : sc.sourceSwitches n src = true ↔
    ((sc.active.get n).enabled = true ∧ (sc.active.get n).tourLen = 0 ∧ (sc.active.get n).source ≠ src) := by
  simp only [Scene.sourceSwitches, WinRec.tours, Bool.and_eq_true, Bool.not_eq_true', decide_eq_true_eq]
  constructor
  · rintro ⟨⟨henabled, htours⟩, hsource⟩
    simp only [henabled, Bool.true_and, decide_eq_false_iff_not] at htours
    exact ⟨henabled, by omega, hsource⟩
  · rintro ⟨henabled, hlen, hsource⟩
    exact ⟨⟨henabled, by simp [hlen]⟩, hsource⟩

/-! ### Exchanges inside a list (R8) -/

theorem swapForward_of_not_mem {n : Fin 32} {l : List (Fin 32)} (h : n ∉ l) : swapForward n l = l := by
  induction l with
  | nil => rfl
  | cons a l ih =>
    cases l with
    | nil => rfl
    | cons b l =>
      have hb : b ≠ n := fun he => h (by simp [he])
      rw [swapForward, if_neg hb, ih fun hn => h (List.mem_cons_of_mem _ hn)]

theorem swapForward_head {n : Fin 32} {l : List (Fin 32)} (h : n ∉ l) : swapForward n (n :: l) = n :: l := by
  cases l with
  | nil => rfl
  | cons b l =>
    have hb : b ≠ n := fun he => h (by simp [he])
    rw [swapForward, if_neg hb, swapForward_of_not_mem h]

theorem swapForward_mid {n m : Fin 32} (front back : List (Fin 32)) (hfront : n ∉ front) (hm : m ≠ n) :
    swapForward n (front ++ m :: n :: back) = front ++ n :: m :: back := by
  induction front with
  | nil => simp [swapForward]
  | cons a front ih =>
    have ih := ih fun hn => hfront (List.mem_cons_of_mem _ hn)
    cases front with
    | nil =>
      rw [List.nil_append] at ih
      rw [List.singleton_append, swapForward, if_neg hm, ih]
      rfl
    | cons b front =>
      have hb : b ≠ n := fun he => hfront (by simp [he])
      rw [List.cons_append, List.cons_append, swapForward, if_neg hb, ← List.cons_append, ih]
      rfl

theorem swapBack_of_not_mem {n : Fin 32} {l : List (Fin 32)} (h : n ∉ l) : swapBack n l = l := by
  induction l with
  | nil => rfl
  | cons a l ih =>
    cases l with
    | nil => rfl
    | cons b l =>
      have ha : a ≠ n := fun he => h (by simp [he])
      rw [swapBack, if_neg ha, ih fun hn => h (List.mem_cons_of_mem _ hn)]

theorem swapBack_last {n : Fin 32} (front : List (Fin 32)) (hfront : n ∉ front) : swapBack n (front ++ [n]) = front ++ [n] := by
  induction front with
  | nil => rfl
  | cons a front ih =>
    have ha : a ≠ n := fun he => hfront (by simp [he])
    have ih := ih fun hn => hfront (List.mem_cons_of_mem _ hn)
    cases front with
    | nil =>
      rw [List.singleton_append, swapBack, if_neg ha]
      exact congrArg (a :: ·) ih
    | cons b front =>
      rw [List.cons_append, List.cons_append, swapBack, if_neg ha, ← List.cons_append, ih]

theorem swapBack_mid {n m : Fin 32} (front back : List (Fin 32)) (hfront : n ∉ front) :
    swapBack n (front ++ n :: m :: back) = front ++ m :: n :: back := by
  induction front with
  | nil => simp [swapBack]
  | cons a front ih =>
    have ha : a ≠ n := fun he => hfront (by simp [he])
    have ih := ih fun hn => hfront (List.mem_cons_of_mem _ hn)
    cases front with
    | nil =>
      rw [List.nil_append] at ih
      rw [List.singleton_append, swapBack, if_neg ha, ih]
      rfl
    | cons b front =>
      rw [List.cons_append, List.cons_append, swapBack, if_neg ha, ← List.cons_append, ih]
      rfl

/-! ### Tiers of a list cut at a window (R6) -/

theorem tierOf_append (t : Table WinRec 32) (p : Bool) (l m : List (Fin 32)) :
    tierOf t p (l ++ m) = tierOf t p l ++ tierOf t p m := List.filter_append ..

theorem tierOf_cons_same {t : Table WinRec 32} {p : Bool} {n : Fin 32} (h : (t.get n).pinned = p) (l : List (Fin 32)) :
    tierOf t p (n :: l) = n :: tierOf t p l := List.filter_cons_of_pos (decide_eq_true h)

theorem tierOf_cons_other {t : Table WinRec 32} {p : Bool} {n : Fin 32} (h : (t.get n).pinned ≠ p) (l : List (Fin 32)) :
    tierOf t p (n :: l) = tierOf t p l := List.filter_cons_of_neg (by simpa using h)

theorem not_mem_tierOf {t : Table WinRec 32} {p : Bool} {n : Fin 32} {l : List (Fin 32)} (h : n ∉ l) : n ∉ tierOf t p l :=
  fun hn => h (mem_tierOf.mp hn).1

/-- R6: a list is its pinned tier and then the other; so is every list whose windows stand in tiers in the same way. -/
theorem tiers_of_pinned_eq {t : Table WinRec 32} {l l' : List (Fin 32)}
    (h : l.Pairwise fun a b => (t.get b).pinned = true → (t.get a).pinned = true)
    (heq : (l'.map fun m => (t.get m).pinned) = l.map fun m => (t.get m).pinned) :
    tierOf t true l' ++ tierOf t false l' = l' := by
  refine ListOf.eq_tiers ?_
  have hmap : (l.map fun m => (t.get m).pinned).Pairwise fun a b => b = true → a = true := List.pairwise_map.mpr h
  rw [← heq] at hmap
  exact List.pairwise_map.mp hmap

/-- R8: an operation moves windows of window n's tier alone. -/
theorem stackApply_eq {t : Table WinRec 32} {n : Fin 32} {p : Bool} (hp : (t.get n).pinned = p) (op : StackOp)
    {l l' : List (Fin 32)} (h : l.Pairwise fun a b => (t.get b).pinned = true → (t.get a).pinned = true)
    (heq : (l'.map fun m => (t.get m).pinned) = l.map fun m => (t.get m).pinned)
    (hsame : op.inTier n (tierOf t p l) = tierOf t p l') (hother : tierOf t (!p) l = tierOf t (!p) l') :
    op.apply t n l = l' := by
  rw [StackOp.apply, hp]
  cases p with
  | true => exact (congrArg₂ (· ++ ·) hsame hother).trans (tiers_of_pinned_eq h heq)
  | false => exact (congrArg₂ (· ++ ·) hother hsame).trans (tiers_of_pinned_eq h heq)

theorem inTier_raise (n : Fin 32) (l : List (Fin 32)) : StackOp.raise.inTier n l = swapForward n l := rfl

theorem inTier_lower (n : Fin 32) (l : List (Fin 32)) : StackOp.lower.inTier n l = swapBack n l := rfl

/-- R8: RAISE of a window behind another of its tier. -/
theorem stackRaise_swaps {t : Table WinRec 32} {n m : Fin 32} {front back : List (Fin 32)}
    (h : ListOf t (front ++ m :: n :: back)) (hp : (t.get m).pinned = (t.get n).pinned) :
    StackOp.raise.apply t n (front ++ m :: n :: back) = front ++ n :: m :: back := by
  obtain ⟨hnodup, -, hpair⟩ := h
  have hfront : n ∉ front := fun hn => (List.disjoint_of_nodup_append hnodup) hn (by simp)
  have hm : m ≠ n := fun he => by
    have := (List.nodup_append.mp hnodup).2.1
    simp [he] at this
  refine stackApply_eq rfl .raise hpair (by simp [hp]) ?_ ?_
  · rw [inTier_raise, tierOf_append, tierOf_cons_same hp, tierOf_cons_same rfl, tierOf_append, tierOf_cons_same rfl,
      tierOf_cons_same hp, swapForward_mid _ _ (not_mem_tierOf hfront) hm]
  · have hn : (t.get n).pinned ≠ !(t.get n).pinned := by simp
    rw [tierOf_append, tierOf_cons_other (hp ▸ hn), tierOf_cons_other hn, tierOf_append, tierOf_cons_other hn,
      tierOf_cons_other (hp ▸ hn)]

/-- R8: at the front of its tier RAISE leaves the window where it is. -/
theorem stackRaise_stays {t : Table WinRec 32} {n : Fin 32} {front back : List (Fin 32)} (h : ListOf t (front ++ n :: back))
    (hedge : ∀ m ∈ front, (t.get m).pinned ≠ (t.get n).pinned) :
    StackOp.raise.apply t n (front ++ n :: back) = front ++ n :: back := by
  obtain ⟨hnodup, -, hpair⟩ := h
  have hback : n ∉ back := (List.nodup_cons.mp (List.nodup_append.mp hnodup).2.1).1
  refine stackApply_eq rfl .raise hpair rfl ?_ rfl
  have hnil : tierOf t (t.get n).pinned front = [] := List.filter_eq_nil_iff.mpr fun m hm => by simpa using hedge m hm
  rw [inTier_raise, tierOf_append, tierOf_cons_same rfl, hnil, List.nil_append, swapForward_head (not_mem_tierOf hback)]

/-- R8: LOWER of a window in front of another of its tier. -/
theorem stackLower_swaps {t : Table WinRec 32} {n m : Fin 32} {front back : List (Fin 32)}
    (h : ListOf t (front ++ n :: m :: back)) (hp : (t.get m).pinned = (t.get n).pinned) :
    StackOp.lower.apply t n (front ++ n :: m :: back) = front ++ m :: n :: back := by
  obtain ⟨hnodup, -, hpair⟩ := h
  have hfront : n ∉ front := fun hn => (List.disjoint_of_nodup_append hnodup) hn (by simp)
  refine stackApply_eq rfl .lower hpair (by simp [hp]) ?_ ?_
  · rw [inTier_lower, tierOf_append, tierOf_cons_same rfl, tierOf_cons_same hp, tierOf_append, tierOf_cons_same hp,
      tierOf_cons_same rfl, swapBack_mid _ _ (not_mem_tierOf hfront)]
  · have hn : (t.get n).pinned ≠ !(t.get n).pinned := by simp
    rw [tierOf_append, tierOf_cons_other hn, tierOf_cons_other (hp ▸ hn), tierOf_append, tierOf_cons_other (hp ▸ hn),
      tierOf_cons_other hn]

/-- R8: at the back of its tier LOWER leaves the window where it is. -/
theorem stackLower_stays {t : Table WinRec 32} {n : Fin 32} {front back : List (Fin 32)} (h : ListOf t (front ++ n :: back))
    (hedge : ∀ m ∈ back, (t.get m).pinned ≠ (t.get n).pinned) :
    StackOp.lower.apply t n (front ++ n :: back) = front ++ n :: back := by
  obtain ⟨hnodup, -, hpair⟩ := h
  have hfront : n ∉ front := fun hn => (List.disjoint_of_nodup_append hnodup) hn (by simp)
  refine stackApply_eq rfl .lower hpair rfl ?_ rfl
  have hnil : tierOf t (t.get n).pinned back = [] := List.filter_eq_nil_iff.mpr fun m hm => by simpa using hedge m hm
  rw [inTier_lower, tierOf_append, tierOf_cons_same rfl, hnil, swapBack_last _ (not_mem_tierOf hfront)]

theorem without_append (n : Fin 32) (l m : List (Fin 32)) : without n (l ++ m) = without n l ++ without n m :=
  List.filter_append ..

/-- R8: FRONT puts the window first of its tier. -/
theorem stackFront_raised {t : Table WinRec 32} {n : Fin 32} {l : List (Fin 32)} (h : ListOf t l) (hn : n ∈ l) :
    RaisedIn t n l (StackOp.front.apply t n l) := by
  have htiers := ListOf.eq_tiers h.2.2
  refine ⟨fun hnot => absurd hn hnot, fun _ => ?_⟩
  have hcut : without n (tierOf t true l) ++ without n (tierOf t false l) = without n l := by
    rw [← without_append, htiers]
  cases hp : (t.get n).pinned with
  | true =>
    have hmem : n ∈ tierOf t true l := mem_tierOf.mpr ⟨hn, hp⟩
    have hother : n ∉ tierOf t false l := fun hf => by simp [(mem_tierOf.mp hf).2] at hp
    rw [without_of_not_mem hother] at hcut
    refine ⟨[], without n (tierOf t true l) ++ tierOf t false l, ?_, hcut, fun _ => rfl, fun hf => Bool.noConfusion hf⟩
    simp [StackOp.apply, hp, StackOp.inTier, hmem]
  | false =>
    have hmem : n ∈ tierOf t false l := mem_tierOf.mpr ⟨hn, hp⟩
    have hother : n ∉ tierOf t true l := fun hf => by simp [(mem_tierOf.mp hf).2] at hp
    rw [without_of_not_mem hother] at hcut
    refine ⟨tierOf t true l, without n (tierOf t false l), ?_, hcut, fun hf => Bool.noConfusion hf, fun _ =>
      ⟨fun m hm => (mem_tierOf.mp hm).2, fun m hm => (mem_tierOf.mp (mem_without.mp hm).1).2⟩⟩
    simp [StackOp.apply, hp, StackOp.inTier, hmem]

/-- R8: BACK puts the window last of its tier. -/
theorem stackBack_spec {t : Table WinRec 32} {n : Fin 32} {l : List (Fin 32)} (h : ListOf t l) (hn : n ∈ l) :
    ∃ front back, StackOp.back.apply t n l = front ++ n :: back ∧ front ++ back = without n l ∧
      ((t.get n).pinned = true → (∀ m ∈ front, (t.get m).pinned = true) ∧ ∀ m ∈ back, (t.get m).pinned = false) ∧
      ((t.get n).pinned = false → back = []) := by
  have htiers := ListOf.eq_tiers h.2.2
  have hcut : without n (tierOf t true l) ++ without n (tierOf t false l) = without n l := by
    rw [← without_append, htiers]
  cases hp : (t.get n).pinned with
  | true =>
    have hmem : n ∈ tierOf t true l := mem_tierOf.mpr ⟨hn, hp⟩
    have hother : n ∉ tierOf t false l := fun hf => by simp [(mem_tierOf.mp hf).2] at hp
    rw [without_of_not_mem hother] at hcut
    refine ⟨without n (tierOf t true l), tierOf t false l, ?_, hcut, fun _ =>
      ⟨fun m hm => (mem_tierOf.mp (mem_without.mp hm).1).2, fun m hm => (mem_tierOf.mp hm).2⟩, fun hf => Bool.noConfusion hf⟩
    simp [StackOp.apply, hp, StackOp.inTier, hmem]
  | false =>
    have hmem : n ∈ tierOf t false l := mem_tierOf.mpr ⟨hn, hp⟩
    have hother : n ∉ tierOf t true l := fun hf => by simp [(mem_tierOf.mp hf).2] at hp
    rw [without_of_not_mem hother] at hcut
    refine ⟨tierOf t true l ++ without n (tierOf t false l), [], ?_, by rw [List.append_nil, hcut], fun hf => Bool.noConfusion hf,
      fun _ => rfl⟩
    simp [StackOp.apply, hp, StackOp.inTier, hmem]

/-! ### The commands -/

theorem StackOp.ofCode_eq_none {n : Nat} (h : 4 ≤ n) : StackOp.ofCode n = none := by
  unfold StackOp.ofCode
  split <;> first | omega | rfl

/-- R156, R161: the judgement of a STACK that its class allows. -/
theorem stackCommand_allowed {s : State} {cls : OrigClass} {c : Control} {n : Fin 32} (hindex : c.index = n.val)
    (hclass : ¬(cls = .operator ∧ (s.scene.shadow.get n).pinned = true)) :
    ((s.scene.shadow.get n).enabled = false ∨ 4 ≤ c.arg1 → s.stackCommand cls c = (s, Answer.plain .range)) ∧
    (∀ op, StackOp.ofCode c.arg1 = some op → (s.scene.shadow.get n).enabled = true → s.stackCommand cls c =
      ({ s with scene := { s.scene with shadowList := op.apply s.scene.shadow n s.scene.shadowList } }, Answer.plain .ok)) := by
  have hdenied : ¬(cls = .operator ∧ s.shadowPinned n = true) := hclass
  unfold State.stackCommand
  rw [hindex, index?_val]
  simp only [if_neg hdenied]
  refine ⟨fun h => ?_, fun op hop henabled => ?_⟩
  · rcases h with h | h
    · split
      · rfl
      · exact if_pos h
    · rw [StackOp.ofCode_eq_none h]
  · rw [hop]
    simp [henabled]

/-- Settles O31: the list lemmas for RAISE and STACK, and each command's own work. -/
theorem sceneActions : Obligations.SceneActions := by
  unfold Obligations.SceneActions
  refine ⟨fun sc n hshadow hactive => ⟨rfl, raisedIn_raised hshadow n, raisedIn_raised hactive n⟩,
    fun sc n src sw revision hrev => ⟨by rw [hrev]; rfl, rfl, ?_⟩, fun sc p h => by simp [Scene.recall, h],
    fun sc p h => by simp [Scene.recall, h], fun sc p t ht => ?_, fun s c hcommand => ?_,
    fun s c p hcommand hindex hsup => ?_, fun s c before pinned hcommand hbefore hpinned => ?_⟩
  · simp only [SceneWork.source, sourceSwitches_iff]
  · subst ht
    refine ⟨rfl, fun n hn => ?_, fun n hn hslot => ?_, fun n r hn hslot => ?_, ?_⟩
    · simp [Scene.loadPreset, loadedRecord, hn]
    · simp [Scene.loadPreset, loadedRecord, hn, hslot, wrapInc]
    · simp [Scene.loadPreset, loadedRecord, hn, hslot, wrapInc]
    · simp [Scene.loadPreset, tierOf]
  · rw [judge_isOpen (k := .presetLoad) (by rw [hcommand]; rfl) rfl]
    simp only [State.work, State.presetLoad]
    refine ⟨fun h => ?_, fun p hp => ?_⟩
    · rw [index?_of_le h]
      rfl
    · rw [hp, index?_val]
      rfl
  · rw [judge_open (k := .presetSave) (by rw [hcommand]; rfl) rfl (by rw [hsup]; rfl)]
    simp only [State.work, State.presetSave, hindex, index?_val]
    refine ⟨_, rfl, rfl, ?_, fun n => ?_⟩
    · simp [tierOf]
    · simp
  · subst hbefore
    rw [judge_isOpen (k := .stack) (by rw [hcommand]; rfl) rfl]
    simp only [State.work]
    refine ⟨fun h => ?_, fun n hindex => ⟨fun hdenied => ?_, fun hclass => ?_⟩⟩
    · simp only [State.stackCommand, index?_of_le h]
      rfl
    · rw [hpinned] at hdenied
      simp only [State.stackCommand, hindex, index?_val]
      exact if_pos hdenied
    · rw [hpinned] at hclass
      obtain ⟨hrange, hmoved⟩ := stackCommand_allowed hindex hclass
      refine ⟨hrange, fun henabled harg hlist => ?_⟩
      obtain ⟨op, hop⟩ : ∃ op, StackOp.ofCode c.arg1 = some op := by
        interval_cases c.arg1 <;> exact ⟨_, rfl⟩
      have hmem : n ∈ s.scene.shadowList := (hlist.2.1 n).mpr henabled
      have hcode : ∀ k op', c.arg1 = k → StackOp.ofCode k = some op' → op = op' := fun k op' hk hop' => by
        rw [hk, hop'] at hop
        exact (Option.some.inj hop).symm
      simp only [hpinned]
      refine ⟨_, hmoved op hop henabled, fun hk => ?_, fun hk => ?_, fun hk => ?_, fun hk => ?_⟩
      · obtain rfl := hcode 0 .raise hk rfl
        refine ⟨fun back hback => ?_, fun front m back hcut => ?_⟩
        · rw [hback] at hlist ⊢
          exact stackRaise_stays (front := []) hlist fun m hm => absurd hm List.not_mem_nil
        · rw [hcut] at hlist ⊢
          split
          next hp => exact stackRaise_swaps hlist hp
          next hp =>
            have hpair := List.pairwise_append.mp hlist.2.2
            have hmn := (List.pairwise_cons.mp hpair.2.1).1 n (by simp)
            have hm : (s.scene.shadow.get m).pinned = true ∧ (s.scene.shadow.get n).pinned = false := by
              revert hp hmn
              cases (s.scene.shadow.get m).pinned <;> cases (s.scene.shadow.get n).pinned <;> simp
            have h := stackRaise_stays (t := s.scene.shadow) (n := n) (front := front ++ [m]) (back := back)
              (by simpa using hlist) fun k hk => by
                rw [hm.2]
                rcases List.mem_append.mp hk with hk | hk
                · simp [hpair.2.2 k hk m (by simp) hm.1]
                · simp [List.mem_singleton.mp hk, hm.1]
            simpa using h
      · obtain rfl := hcode 1 .lower hk rfl
        refine ⟨fun front hfront => ?_, fun front m back hcut => ?_⟩
        · rw [hfront] at hlist ⊢
          exact stackLower_stays (back := []) hlist fun m hm => absurd hm List.not_mem_nil
        · rw [hcut] at hlist ⊢
          split
          next hp => exact stackLower_swaps hlist hp
          next hp =>
            have hpair := List.pairwise_cons.mp (List.pairwise_append.mp hlist.2.2).2.1
            have hnm := hpair.1 m (by simp)
            have hm : (s.scene.shadow.get n).pinned = true ∧ (s.scene.shadow.get m).pinned = false := by
              revert hp hnm
              cases (s.scene.shadow.get m).pinned <;> cases (s.scene.shadow.get n).pinned <;> simp
            refine stackLower_stays hlist fun k hk => ?_
            rw [hm.1]
            rcases List.mem_cons.mp hk with rfl | hk
            · simp [hm.2]
            · intro hkp
              have := (List.pairwise_cons.mp hpair.2).1 k hk hkp
              simp [hm.2] at this
      · obtain rfl := hcode 2 .front hk rfl
        exact stackFront_raised hlist hmem
      · obtain rfl := hcode 3 .back hk rfl
        exact stackBack_spec hlist hmem

end Sys2Proof.Machine
end

section
/-! The invariants at reset; the stores, the built-in glyphs (R112) and the Command Unit after power-on reset; and the
attention set with its STATUS cells (R164 to R166). -/

namespace Sys2Proof.Machine

/-! ### The invariants at reset -/

theorem Setup.powerOn_ok : Setup.powerOn.ok 0 = true := by decide

theorem StoreManager.powerOn_free : StoreManager.powerOn.free = indices 8192 := by simp only [StoreManager.powerOn]

/-- Settles O56: each invariant from the power-on values of its block. -/
theorem invariantsAtReset : Obligations.InvariantsAtReset := by
  have hsound : Scene.powerOn.ListsLegal := Scene.listsLegal_powerOn
  have hrecord : ∀ n, ((Table.fill 32 WinRec.default).get n).ok = true := fun n => by
    rw [Table.get_fill]
    exact WinRec.default_ok
  have hwin : ∀ n, State.reset.store.wins.get n = WinStore.empty := fun n => Table.get_fill _ n
  have htrack : ∀ n, State.reset.src.states.get n = SourceTrack.idle := fun n => Table.get_fill _ n
  refine ⟨?_, ?_, ⟨fun n => ?_, fun n => ?_, Nat.zero_le 32⟩, ⟨hrecord, hrecord, fun p n r h => ?_⟩, fun n => ?_,
    ⟨Setup.powerOn_ok, fun copy h => (Option.some_ne_none copy h.symm).elim⟩, fun c hc => absurd hc List.not_mem_nil, hsound,
    pagesCovered_of_empty StoreManager.powerOn_free fun n => by rw [hwin]; rfl, fun n => WinStore.rolesLegal_of_nil (by rw [hwin]; rfl),
    fun n b hb => ?_, Memory.wf_nil, queueInOrder_of_empty rfl⟩
  · simp [RingInRange, State.reset, Ring.powerOn, CommandUnit.powerOn]
  · simp [TimerInRange, State.reset, Timer.powerOn, Setup.powerOn]
  · rw [htrack]
    simp [SourceTrack.inRange, SourceTrack.idle]
  · rw [hwin]
    decide
  · have hp : State.reset.scene.presets.get p = Preset.empty := Table.get_fill _ p
    rw [hp, show Preset.empty.slots.get n = none from Table.get_fill _ n] at h
    cases h
  · rw [show State.reset.src.records.get n = SourceRec.default from Table.get_fill _ n]
    exact SourceRec.default_ok
  · rw [hwin] at hb
    exact absurd hb List.not_mem_nil

/-! ### The built-in glyphs (R112) -/

/-- The number whose bits, the most significant of `n` first, are `f 0`, `f 1` and so on. -/
def bitsFrom (f : Nat → Bool) (n : Nat) : Nat := (List.range n).foldl (fun acc col => 2 * acc + (f col).toNat) 0

theorem bitsFrom_succ (f : Nat → Bool) (n : Nat) : bitsFrom f (n + 1) = Nat.bit (f n) (bitsFrom f n) := by
  rw [bitsFrom, List.range_succ, List.foldl_append, Nat.bit_val]
  rfl

theorem testBit_bitsFrom (f : Nat → Bool) (n : Nat) {j : Nat} (h : j < n) : (bitsFrom f n).testBit (n - 1 - j) = f j := by
  induction n with
  | zero => omega
  | succ n ih =>
    rw [bitsFrom_succ]
    by_cases hj : j = n
    · rw [hj, show n + 1 - 1 - n = 0 by omega, Nat.testBit_bit_zero]
    · rw [show n + 1 - 1 - j = (n - 1 - j) + 1 by omega, Nat.testBit_bit_succ, ih (by omega)]

theorem builtInGlyphs_bit (code : Fin 128) (row : Fin 16) {col : Nat} (h : col < 12) :
    ((builtInGlyphs.get code).get row).getLsbD (11 - col) = builtInBit code.val row.val col := by
  rw [builtInGlyphs, Table.get_ofFn, builtInGlyph, Table.get_ofFn, BitVec.getLsbD_ofNat]
  simp only [show 11 - col < 12 by omega, decide_true, Bool.true_and]
  exact testBit_bitsFrom (builtInBit code.val row.val) 12 h

theorem builtInBit_of_blank {code : Nat} (h : code ≤ 32 ∨ code = 127) (row col : Nat) : builtInBit code row col = false := by
  have hcode : (decide (33 ≤ code) && decide (code ≤ 126)) = false := by
    rw [Bool.and_eq_false_iff, decide_eq_false_iff_not, decide_eq_false_iff_not]
    omega
  simp [builtInBit, hcode]

theorem builtInBit_of_margin {row col : Nat} (h : row < 4 ∨ 11 < row ∨ col < 4 ∨ 8 < col) (code : Nat) :
    builtInBit code row col = false := by
  simp only [builtInBit, Bool.and_eq_false_iff, decide_eq_false_iff_not]
  omega

theorem builtInBit_of_column {code row col : Nat} {bytes : List Byte} {b : Byte} (hcode : 33 ≤ code ∧ code ≤ 126)
    (hrow : 4 ≤ row ∧ row ≤ 11) (hcol : 4 ≤ col ∧ col ≤ 8) (hbytes : glyphColumns[code - 33]? = some bytes)
    (hb : bytes[col - 4]? = some b) : builtInBit code row col = b.getLsbD (row - 4) := by
  simp [builtInBit, hcode, hrow, hcol, List.getD_eq_getElem?_getD, hbytes, hb]

theorem glyphColumns_length : ∀ bytes ∈ glyphColumns, bytes.length = 5 := by decide

/-- Settles O5: the power-on values, and the glyph bits by `builtInBit`. -/
theorem powerOnResetStoresAndPanel : Obligations.PowerOnResetStoresAndPanel := by
  refine fun s => ⟨s.powerOnReset, exec_powerOnReset s, StoreManager.powerOn_free, fun n => ?_, rfl, fun a => rfl, rfl, rfl,
    fun code row col hcol => ⟨fun h => ?_, fun hlow hhigh => ⟨fun h => ?_, fun bytes b hbytes hleft hb htop hbottom => ?_⟩⟩,
    rfl, rfl, rfl, rfl, rfl, fun i hi => ?_, rfl, rfl, rfl⟩
  · rw [show s.powerOnReset.store.wins.get n = WinStore.empty from Table.get_fill _ n]
    exact ⟨rfl, rfl, rfl, rfl, rfl⟩
  · exact (builtInGlyphs_bit code row hcol).trans (builtInBit_of_blank h row.val col)
  · exact (builtInGlyphs_bit code row hcol).trans (builtInBit_of_margin h code.val)
  · refine (builtInGlyphs_bit code row hcol).trans ?_
    by_cases hright : col ≤ 8
    · exact builtInBit_of_column ⟨hlow, hhigh⟩ ⟨htop, hbottom⟩ ⟨hleft, hright⟩ hbytes hb
    · have hlen := glyphColumns_length bytes (List.mem_of_getElem? hbytes)
      rw [List.getElem?_eq_none (by omega)] at hb
      cases hb
  · exact (Table.get_set_of_ne _ _ hi).trans (Table.get_fill _ i)

/-! ### The attention set and STATUS cells (R164 to R166) -/

theorem EventKind.exists_of_priority {i : Nat} (h : i < 12) : ∃ k : EventKind, k.priority = i + 1 := by
  have hall : ∀ i : Fin 12, ∃ k ∈ [EventKind.linkChange, .lockChange, .sourceLost, .nomem, .repliesDropped, .slip, .cueLate,
      .sourceStalled, .sourceLive, .gateOpen, .setupTaken, .commitTaken], k.priority = i.val + 1 := by decide
  obtain ⟨k, -, hk⟩ := hall ⟨i, h⟩
  exact ⟨k, hk⟩

theorem firstEvent_zero : firstEvent 0 = 0 := by decide

/-- R164: the first event is the kind of the set that no kind of higher priority goes before. -/
theorem firstEvent_eq {set : BitVec 12} {k : EventKind} (h : kindIn set k = true)
    (hfirst : ∀ j : EventKind, j.priority < k.priority → kindIn set j = false) : firstEvent set = k.priority := by
  obtain ⟨hlow, hhigh⟩ := k.priority_bounds
  have hfind : ((List.range 12).find? fun i => set.getLsbD i) = some (k.priority - 1) := by
    rw [List.find?_range_eq_some]
    refine ⟨h, List.mem_range.mpr (by omega), fun i hi => ?_⟩
    obtain ⟨j, hj⟩ := EventKind.exists_of_priority (i := i) (by omega)
    have habsent := hfirst j (by omega)
    rw [kindIn, hj, Nat.add_sub_cancel] at habsent
    simp [habsent]
  rw [firstEvent, hfind]
  exact Nat.sub_add_cancel hlow

theorem statusBody_eq (s : State) : statusBody s =
    [5, byte s.cmd.address, 0, byte s.timer.lock.code, byte s.timer.gate.code, byte (firstEvent s.cmd.attention),
      byte (s.timer.wallN.toNat / 16777216), byte (s.timer.wallN.toNat / 65536), byte (s.timer.wallN.toNat / 256),
      byte s.timer.wallN.toNat, byte (s.cmd.attention.toNat / 256), byte s.cmd.attention.toNat,
      byte (s.store.free.length / 256), byte s.store.free.length, byte s.store.degraded, byte s.cues.queue.length,
      byte (s.ring.repliesDropped / 256), byte s.ring.repliesDropped] ++ List.replicate 236 0 := by
  simp only [statusBody, natBytes_four, natBytes_two, padTo]
  rfl

theorem kindIn_eventAck (set : BitVec 12) (arg : Nat) (k : EventKind) :
    kindIn (set &&& ~~~(BitVec.ofNat 12 arg)) k = (kindIn set k && !arg.testBit (k.priority - 1)) := by
  obtain ⟨hlow, hhigh⟩ := k.priority_bounds
  simp only [kindIn, BitVec.getLsbD_and, BitVec.getLsbD_not, BitVec.getLsbD_ofNat,
    show k.priority - 1 < 12 by omega, decide_true, Bool.true_and]

theorem statusInterval_of_reached {s : State} (h : s.timer.setup.statusInterval ≤ s.cmd.intervalCount) :
    s.statusInterval = { s with
      ring := { s.ring with slot := some (statusBody s) }
      cmd := { s.cmd with intervalCount := 0 } } := if_pos h

theorem statusInterval_of_below {s : State} (h : s.cmd.intervalCount < s.timer.setup.statusInterval) :
    s.statusInterval = s := if_neg (Nat.not_le.mpr h)

theorem exec_statusInterval (s : State) : exec .statusInterval s = .next (s.whenRunning State.statusInterval) := rfl

theorem InnerKept.latch (k : EventKind) (s : State) : InnerKept s (latch k s) := by
  obtain ⟨htimer, hscene, hsrc, hstore, hcomp, hcues, hfree, -⟩ := latch_keeps k s
  exact .of_eq htimer hscene hsrc hstore hcomp hcues hfree

/-- Settles O25: the bytes by `statusBody_eq`, the first event by `firstEvent_eq`, and each latch by its rule. -/
theorem latchesAndStatusCells : Obligations.LatchesAndStatusCells := by
  unfold Obligations.LatchesAndStatusCells
  refine ⟨fun s n hn => ⟨s.timer.lock.code, s.timer.gate.code, firstEvent s.cmd.attention, hn ▸ statusBody_eq s, ?_, ?_,
      fun h => h ▸ firstEvent_zero, fun k => firstEvent_eq⟩, rfl,
    fun k s => ⟨latched_latch k s, .latch k s, (OuterLatched.latch k s).1, ?_, fun j hj => ?_⟩, fun s c hcommand => ?_,
    fun s hrun hreached => ?_, fun s h => ?_⟩
  · cases s.timer.lock <;> rfl
  · cases s.timer.gate <;> rfl
  · rw [latch_attention, kindIn_or, kindIn_bit, decide_eq_true rfl, Bool.or_true]
  · rw [latch_attention, kindIn_or, kindIn_bit, decide_eq_false hj, Bool.or_false]
  · rw [judge_isOpen (k := .eventAck) (by rw [hcommand]; rfl) rfl]
    exact ⟨rfl, rfl, kindIn_eventAck _ _, ⟨rfl, rfl, rfl⟩, rfl, .of_eq rfl rfl rfl rfl rfl rfl rfl⟩
  · refine ⟨s.statusInterval, by rw [exec_statusInterval, State.whenRunning, if_pos hrun], ?_⟩
    rw [statusInterval_of_reached hreached]
    exact ⟨rfl, rfl, .of_eq rfl rfl rfl rfl rfl rfl rfl⟩
  · rw [exec_statusInterval]
    by_cases hrun : s.ring.phase = .running
    · rw [State.whenRunning, if_pos hrun, statusInterval_of_below (h.resolve_left fun hn => hn hrun)]
    · rw [State.whenRunning, if_neg hrun]

end Sys2Proof.Machine
end

section
/-! The lock thresholds and the start timeout as commands of their own (R116 to R119, R122), and the SYNC arrival (R115 to
R118). -/

namespace Sys2Proof.Machine

/-! ### The commands (log 3) -/

theorem exec_lockAcquired (s : State) : exec .lockAcquired s = .next (s.whenRunning fun t =>
    if t.timer.lock = .acquire ∧ 8 ≤ t.timer.good then t.lockAcquired.setTrim else t) := rfl

theorem exec_lockBadLimit (s : State) : exec .lockBadLimit s = .next (s.whenRunning fun t =>
    if t.timer.lock = .locked ∧ 3 ≤ t.timer.bad then t.lockBadLimit.setTrim else t) := rfl

theorem exec_acquireMissedLimit (s : State) :
    exec .acquireMissedLimit s = .next (s.whenRunning State.acquireMissedLimit) := rfl

theorem exec_holdoverLimit (s : State) : exec .holdoverLimit s = .next (s.whenRunning State.holdoverLimit) := rfl

theorem exec_startTimeout (s : State) : exec .startTimeout s = .next (s.whenRunning State.startTimeout) := rfl

/-- Outside of `running`, and where its limit is not reached, a command changes nothing. -/
theorem whenRunning_idle {s : State} {f : State → State} (h : s.ring.phase = .running → f s = s) :
    s.whenRunning f = s := by
  unfold State.whenRunning
  split
  next hrun => exact h hrun
  next => rfl

/-! ### What each threshold leaves -/

theorem openGate_attention (s : State) : s.openGate.cmd.attention =
    s.cmd.attention ||| (if s.timer.gate = .gated then EventKind.gateOpen.bit else 0) := by
  unfold State.openGate
  split
  · rw [latch_attention]
  · simp

theorem enterLocked_attention (s : State) : s.enterLocked.cmd.attention = s.cmd.attention ||| EventKind.lockChange.bit |||
    (if s.timer.gate = .gated then EventKind.gateOpen.bit else 0) := by
  rw [State.enterLocked, openGate_attention, changeLock_timer, State.changeLock, latch_attention]

/-- The lock state changes after work on the timer that leaves the setup in force: LOCK_CHANGE is latched. -/
theorem latched_changeLock {s u : State} (hring : u.ring = s.ring) (hcmd : u.cmd = s.cmd)
    (hsetup : u.timer.setup = s.timer.setup) (l : LockState) : Latched .lockChange s (u.changeLock l) := by
  have h : Latched .lockChange u (u.changeLock l) := latched_latch .lockChange { u with timer := { u.timer with lock := l } }
  unfold Latched CommandKept at h ⊢
  rwa [hring, hcmd, hsetup] at h

theorem setTrim_rule {s u : State} (h : OuterLatched s u ∧ PictureKept s u) :
    CommandKept s u.setTrim ∧ RingKeptButSlot s u.setTrim ∧ PictureKept s u.setTrim := by
  obtain ⟨⟨hring, hcmd⟩, hpicture⟩ := h
  exact ⟨hcmd, hring, hpicture⟩

theorem acquireMissedLimit_of_not {s : State} (h : ¬(s.timer.lock = .acquire ∧ s.timer.syncNoted = false ∧ 3 ≤ s.timer.missed)) :
    s.acquireMissedLimit = s := if_neg h

theorem holdoverLimit_of_not {s : State}
    (h : ¬(s.timer.lock = .holdover ∧ s.timer.syncNoted = false ∧ s.timer.setup.holdoverLimit ≤ s.timer.missed)) :
    s.holdoverLimit = s := if_neg h

theorem startTimeout_of_reached {s : State} (hgate : s.timer.gate = .gated)
    (h : 1 ≤ s.timer.setup.startTimeout ∧ s.timer.setup.startTimeout ≤ s.timer.startCount) :
    s.startTimeout = latch .gateOpen { s with timer := { s.timer with gate := .opened } } := (if_pos h).trans (if_pos hgate)

theorem startTimeout_of_not {s : State} (h : s.timer.gate = .opened ∨
    ¬(1 ≤ s.timer.setup.startTimeout ∧ s.timer.setup.startTimeout ≤ s.timer.startCount)) : s.startTimeout = s := by
  unfold State.startTimeout
  split
  next hout => exact if_neg (by rw [h.resolve_right fun hn => hn hout]; decide)
  next => rfl

/-- Settles O32: each threshold by the rule of its own, below it by the guard. -/
theorem timerThresholds : Obligations.TimerThresholds := by
  unfold Obligations.TimerThresholds
  refine ⟨fun s hrun hlock hgood => ?_, fun s h => ?_, fun s hrun hlock hbad => ?_, fun s h => ?_,
    fun s hrun hlock hnoted hmissed => ?_, fun s h => ?_, fun s hrun hlock hnoted hmissed => ?_, fun s h => ?_,
    fun s hrun hgate hone hcount => ?_, fun s h => ?_⟩
  · have htimer : s.lockAcquired.timer = { s.timer with lock := .locked, good := 0, bad := 0, gate := .opened } := by
      rw [lockAcquired_of_reached hlock hgood, enterLocked_timer]
    refine ⟨s.lockAcquired.setTrim, ?_, ?_, ?_, setTrim_rule (lockAcquired_rule s).2⟩
    · rw [exec_lockAcquired, whenRunning_running hrun, if_pos ⟨hlock, hgood⟩]
    · rw [setTrim_timer, htimer]
      simp only [State.frameLengthWith, htimer]
      rfl
    · show s.lockAcquired.cmd.attention = _
      rw [lockAcquired_of_reached hlock hgood, enterLocked_attention]
  · refine congrArg Host.Outcome.next (whenRunning_idle fun hrun => if_neg fun hr => ?_)
    rcases h with h | h | h
    · exact h hrun
    · exact h hr.1
    · omega
  · have htimer : s.lockBadLimit.timer = { s.timer with lock := .acquire, good := 0, bad := 0 } := by
      rw [lockBadLimit_of_reached hlock hbad, changeLock_timer]
    have hlatched : Latched .lockChange s s.lockBadLimit := by
      rw [lockBadLimit_of_reached hlock hbad]
      exact latched_changeLock rfl rfl rfl .acquire
    refine ⟨s.lockBadLimit.setTrim, ?_, ?_, hlatched, (setTrim_rule (lockBadLimit_rule s).2).2⟩
    · rw [exec_lockBadLimit, whenRunning_running hrun, if_pos ⟨hlock, hbad⟩]
    · rw [setTrim_timer, htimer]
      simp only [State.frameLengthWith, htimer]
      rfl
  · refine congrArg Host.Outcome.next (whenRunning_idle fun hrun => if_neg fun hr => ?_)
    rcases h with h | h | h
    · exact h hrun
    · exact h hr.1
    · omega
  · have hreached : s.acquireMissedLimit = State.changeLock { s with timer := { s.timer with good := 0 } } .free :=
      if_pos ⟨hlock, hnoted, hmissed⟩
    obtain ⟨-, ⟨hring, -⟩, hpicture⟩ := acquireMissedLimit_rule s
    refine ⟨s.acquireMissedLimit, by rw [exec_acquireMissedLimit, whenRunning_running hrun], ?_, ?_, hring, hpicture⟩
    · rw [hreached, changeLock_timer]
    · rw [hreached]
      exact latched_changeLock rfl rfl rfl .free
  · rw [exec_acquireMissedLimit, whenRunning_idle fun hrun => acquireMissedLimit_of_not ?_]
    rintro ⟨hlock, hnoted, hmissed⟩
    rcases h with h | h | h | h
    · exact h hrun
    · exact h hlock
    · exact absurd hnoted (by rw [h]; decide)
    · omega
  · have hreached : s.holdoverLimit = s.changeLock .free := if_pos ⟨hlock, hnoted, hmissed⟩
    obtain ⟨-, ⟨hring, -⟩, hpicture⟩ := holdoverLimit_rule s
    refine ⟨s.holdoverLimit, by rw [exec_holdoverLimit, whenRunning_running hrun], ?_, ?_, hring, hpicture⟩
    · rw [hreached, changeLock_timer]
    · rw [hreached]
      exact latched_changeLock rfl rfl rfl .free
  · rw [exec_holdoverLimit, whenRunning_idle fun hrun => holdoverLimit_of_not ?_]
    rintro ⟨hlock, hnoted, hmissed⟩
    rcases h with h | h | h | h
    · exact h hrun
    · exact h hlock
    · exact absurd hnoted (by rw [h]; decide)
    · omega
  · obtain ⟨-, ⟨hring, -⟩, hpicture⟩ := startTimeout_rule s
    refine ⟨s.startTimeout, by rw [exec_startTimeout, whenRunning_running hrun], ?_, ?_, hring, hpicture⟩
    · rw [startTimeout_of_reached hgate ⟨hone, hcount⟩, (latch_keeps _ _).1]
    · rw [startTimeout_of_reached hgate ⟨hone, hcount⟩]
      exact latched_latch .gateOpen { s with timer := { s.timer with gate := .opened } }
  · rw [exec_startTimeout, whenRunning_idle fun hrun => startTimeout_of_not ?_]
    rcases h with h | h | h | h
    · exact absurd hrun h
    · exact .inl h
    · exact .inr (by omega)
    · exact .inr (by omega)

/-! ### The SYNC arrival (R115 to R118) -/

/-- R115: the phase error lies in -V/2 < e ≤ V/2. -/
theorem phaseError_spec {v o l : Nat} (hv : 16 ≤ v) (ho : o < v) (hl : l < v + 8) :
    -(v : Int) < 2 * phaseError v o l ∧ 2 * phaseError v o l ≤ v ∧
    (phaseError v o l = (l : Int) - o ∨ phaseError v o l = (l : Int) - o - v ∨ phaseError v o l = (l : Int) - o + v) := by
  unfold phaseError
  dsimp only
  split
  · omega
  · split <;> omega

theorem lockAfter_acquire {lock : LockState} (h : lock = .free ∨ lock = .acquire) (good bad : Nat) (e : Int) :
    lockAfter lock good bad e = if e.natAbs ≤ 2 then (if 7 ≤ good then (.locked, 0, 0) else (.acquire, good + 1, bad))
      else (.acquire, 0, bad) := by
  rcases h with rfl | rfl <;> rfl

/-- R115 to R118, field by field: the timer that a SYNC arrival leaves. -/
theorem Timer.synced_eq (t : Timer) (number flags : BitVec 32) {e : Int} (he : e = phaseError t.setup.v t.setup.o t.lineCount) :
    t.synced number flags = { t with
      slip := if number = t.wallN + 1 then t.slip else min 65535 (t.slip + 1)
      nextN := number
      pendFlags := flags
      syncNoted := true
      lastPhase := e
      lock := (lockAfter t.lock t.good t.bad e).1
      good := (lockAfter t.lock t.good t.bad e).2.1
      bad := (lockAfter t.lock t.good t.bad e).2.2
      gate := if (lockAfter t.lock t.good t.bad e).1 = .locked ∧ t.lock ≠ .locked then .opened else t.gate
      trim := trimFor (lockAfter t.lock t.good t.bad e).1 e t.trim
      frameLen := trimmedLength t.setup.v (trimFor (lockAfter t.lock t.good t.bad e).1 e t.trim) t.lineCount } := by
  subst he
  rfl

/-- R164, R165: the kinds that a SYNC arrival latches. -/
def SyncKinds (a b : Timer) (number : BitVec 32) (k : EventKind) : Prop :=
  (k = .slip ∧ number ≠ a.wallN + 1) ∨ (k = .lockChange ∧ b.lock ≠ a.lock) ∨ (k = .gateOpen ∧ b.gate ≠ a.gate)

/-- Where every kind latched is judged by one mask. -/
theorem Noted.one_mask {K : EventKind → Prop} {mask : BitVec 12} {s t : State}
    (h : Noted False (fun j m => K j ∧ m = mask) s t) :
    (∀ k, kindIn t.cmd.attention k = true ↔ (kindIn s.cmd.attention k = true ∨ K k)) ∧
    ((∃ k, K k ∧ kindIn mask k = true) → StatusBuilt t) ∧
    ((∀ k, K k → kindIn mask k = false) → t.ring.slot = s.ring.slot) := by
  refine ⟨fun k => ?_, fun ⟨k, hk, hm⟩ => h.status (.inr ⟨k, mask, ⟨hk, rfl⟩, hm⟩), fun hnone =>
    h.slot id fun k m hk => hk.2 ▸ hnone k hk.1⟩
  rw [h.kinds]
  simp

theorem syncArrival_kinds (s : State) (number flags : BitVec 32) :
    Noted False (fun j m => SyncKinds s.timer (s.syncArrival number flags).timer number j ∧ m = s.timer.setup.eventMask) s
      (s.syncArrival number flags) := by
  obtain ⟨htimer, hnoted⟩ := syncArrival_to s number flags
  rw [← htimer] at hnoted
  refine hnoted.congr .rfl fun j m => ?_
  simp only [OneKind, LockKinds, SyncKinds]
  tauto

/-- Settles O33: the timer by `Timer.synced_eq` and `lockAfter`, the kinds latched by `syncArrival_kinds`. -/
theorem syncArrivalJudged : Obligations.SyncArrivalJudged := by
  unfold Obligations.SyncArrivalJudged
  refine ⟨fun s c placeFirst hwhole hrun hlink hgood hkind => ?_, fun v o l hv ho hl => phaseError_spec hv ho hl⟩
  obtain ⟨e, he⟩ : ∃ e, e = phaseError s.timer.setup.v s.timer.setup.o s.timer.lineCount := ⟨_, rfl⟩
  have hkinds := (syncArrival_kinds (s.passed c) (syncNumber c) (syncFlags c)).one_mask
  obtain ⟨u, ⟨-, houter, hpicture⟩, hu⟩ := syncArrival_stages (s.passed c) (syncNumber c) (syncFlags c)
  have hkept : CommandKept s ((s.passed c).syncArrival (syncNumber c) (syncFlags c)) ∧
      PictureKept s ((s.passed c).syncArrival (syncNumber c) (syncFlags c)) := by
    rw [hu]
    exact ⟨houter.2, hpicture⟩
  have htimer := (syncArrival_to (s.passed c) (syncNumber c) (syncFlags c)).1.trans (s.timer.synced_eq _ _ he)
  refine ⟨(s.passed c).syncArrival (syncNumber c) (syncFlags c), e, ?_, he, ?_⟩
  · rw [exec_cellReceived_good c placeFirst s hwhole hrun hlink hgood, receiveGood_sync placeFirst hkind]
  generalize (s.passed c).syncArrival (syncNumber c) (syncFlags c) = t at htimer hkinds hkept ⊢
  refine ⟨?_, ?_, ?_, ?_, ?_, ?_, ?_, ?_, ?_, ?_, ?_, ?_, ?_, ?_, fun hlock => ?_, fun hlock => ?_, fun hlock => ?_,
    fun hlock => ?_, fun hlock => ?_, ?_, ?_, ⟨SyncKinds s.timer t.timer (syncNumber c), fun _ => .rfl, hkinds⟩, hkept⟩ <;>
    rw [htimer] at *
  · rw [lockAfter_acquire hlock]
    exact ⟨fun h2 h7 => by simp [h2, h7], fun h2 h7 => by simp [h2, Nat.not_le.mpr h7],
      fun h2 => by simp [Nat.not_le.mpr h2]⟩
  · rw [hlock]
    exact ⟨fun h8 h2 => by simp [lockAfter, h8, h2], fun h8 h2 => by simp [lockAfter, h8, Nat.not_le.mpr h2],
      fun h8 => by simp [lockAfter, Nat.not_lt.mpr h8]⟩
  · rw [hlock]
    exact ⟨fun h2 => by simp [lockAfter, h2], fun h2 => by simp [lockAfter, Nat.not_le.mpr h2]⟩
  · exact congrArg (trimFor · e s.timer.trim) hlock
  · exact congrArg (trimFor · e s.timer.trim) hlock
  · rfl

end Sys2Proof.Machine
end

section
/-! Strips at the Source Tracker (R49 to R53, R56, R58): the checks of an arriving strip, accepted strips, and the start and
the end of a frame. -/

namespace Sys2Proof.Machine

theorem Table.set_set {α : Type} {n : Nat} (t : Table α n) (i : Fin n) (a b : α) : (t.set i a).set i b = t.set i b :=
  Table.ext_rows (List.set_set ..)

/-! ### The checks (R49 to R51) -/

theorem SourceRec.accepts_iff (r : SourceRec) (st : Strip) : r.accepts st = true ↔
    (r.enabled = true ∧ st.format = r.format.code ∧ st.line < r.sh ∧ st.segment < r.segments) := by
  simp [SourceRec.accepts, and_assoc]

theorem checkStrip_of_noSource {records : Table SourceRec 32} {st : Strip} (h : 31 < st.source) :
    checkStrip records st = .noSource := by
  rw [checkStrip, index?_of_le h]

theorem checkStrip_of_source {records : Table SourceRec 32} {st : Strip} {n : Fin 32} (h : st.source = n.val) :
    checkStrip records st = if (records.get n).accepts st then .valid n else .discarded n := by
  rw [checkStrip, h, index?_val]

theorem SourceTrack.isStart_eq_false {t : SourceTrack} {st : Strip} (h : st.line ≠ 0 ∨ st.segment ≠ 0 ∨ t.tag = some st.tag) :
    t.isStart st = false := by
  simp only [SourceTrack.isStart, Bool.and_eq_false_iff, decide_eq_false_iff_not, not_not, or_assoc]
  exact h

theorem SourceTrack.isAfter_iff (t : SourceTrack) (st : Strip) : t.isAfter st = true ↔
    (t.lastLine < st.line ∨ (st.line = t.lastLine ∧ t.lastSegment < st.segment)) := by
  simp [SourceTrack.isAfter]

theorem stripArrival_noSource {s : State} {st : Strip} (h : 31 < st.source) : s.stripArrival st = s := by
  rw [State.stripArrival, checkStrip_of_noSource h]

theorem stripArrival_failed {s : State} {st : Strip} {n : Fin 32} (hn : st.source = n.val)
    (h : (s.src.records.get n).accepts st = false) : s.stripArrival st = s.discardStrip n := by
  rw [State.stripArrival, checkStrip_of_source hn, h]
  rfl

theorem stripArrival_start {s : State} {st : Strip} {n : Fin 32} (hn : st.source = n.val)
    (h : (s.src.records.get n).accepts st = true) (hstart : (s.src.states.get n).isStart st = true) :
    s.stripArrival st = s.startFrame n st := by
  rw [State.stripArrival, checkStrip_of_source hn, h]
  exact if_pos hstart

theorem stripArrival_open {s : State} {st : Strip} {n : Fin 32} (hn : st.source = n.val)
    (h : (s.src.records.get n).accepts st = true) (hopen : (s.src.states.get n).frameOpen = true)
    (htag : (s.src.states.get n).tag = some st.tag) :
    s.stripArrival st = if (s.src.states.get n).isAfter st then s.acceptStrip n st else s.sequenceViolation n := by
  rw [State.stripArrival, checkStrip_of_source hn, h]
  exact (if_neg (Bool.eq_false_iff.mp (SourceTrack.isStart_eq_false (.inr (.inr htag))))).trans (if_pos ⟨hopen, htag⟩)

theorem stripArrival_stale {s : State} {st : Strip} {n : Fin 32} (hn : st.source = n.val)
    (h : (s.src.records.get n).accepts st = true)
    (hstart : st.line ≠ 0 ∨ st.segment ≠ 0 ∨ (s.src.states.get n).tag = some st.tag)
    (hstale : (s.src.states.get n).frameOpen = false ∨ (s.src.states.get n).tag ≠ some st.tag) :
    s.stripArrival st = s.discardStrip n := by
  rw [State.stripArrival, checkStrip_of_source hn, h]
  refine (if_neg (Bool.eq_false_iff.mp (SourceTrack.isStart_eq_false hstart))).trans (if_neg fun hopen => ?_)
  rcases hstale with hstale | hstale
  · exact Bool.eq_false_iff.mp hstale hopen.1
  · exact hstale hopen.2

theorem exec_strip {s : State} {c : Cell} (placeFirst : Bool) (hwhole : Cell.Whole c) (hrun : s.ring.phase = .running)
    (hlink : s.ring.link = .up) (hgood : cellGood c = true) (hkind : cellKind c = .strip) :
    exec (.cellReceived c placeFirst) s = .next ((s.passed c).stripArrival (stripOf c)) := by
  rw [exec_cellReceived_good c placeFirst s hwhole hrun hlink hgood, receiveGood_strip placeFirst hkind]

/-- Settles O39: each failed check by its equation for `stripArrival`. -/
theorem failedStripsDiscarded : Obligations.FailedStripsDiscarded := by
  unfold Obligations.FailedStripsDiscarded
  refine fun s c placeFirst hwhole hrun hlink hgood hkind =>
    ⟨_, exec_strip placeFirst hwhole hrun hlink hgood hkind, stripArrival_noSource, fun n k hn hk =>
      ⟨SourceRec.accepts_iff _ _, fun h => ?_, fun haccepts hopen htag hbehind => ?_⟩⟩
  · subst hk
    rcases h with hfails | ⟨hstart, hstale⟩
    · exact stripArrival_failed (s := s.passed c) hn hfails
    · cases haccepts : (s.src.records.get n).accepts (stripOf c)
      · exact stripArrival_failed (s := s.passed c) hn haccepts
      · exact stripArrival_stale (s := s.passed c) hn haccepts hstart hstale
  · subst hk
    rw [stripArrival_open (s := s.passed c) hn haccepts hopen htag]
    refine if_neg fun hafter => ?_
    rcases (SourceTrack.isAfter_iff (s.src.states.get n) _).mp hafter with h | h <;> omega

theorem takeStrip_store (s : State) (n : Fin 32) (st : Strip) :
    (s.takeStrip n st).store = s.store.intake (s.src.records.get n) n st := by
  simp only [State.takeStrip]

/-- Settles O40: an accepted strip by `acceptStrip_eq`. -/
theorem acceptedStripCounts : Obligations.AcceptedStripCounts := by
  unfold Obligations.AcceptedStripCounts
  intro s c placeFirst n k hwhole hrun hlink hgood hkind hn hk henabled hformat hline hsegment hopen htag hafter
  subst hk
  have haccepts : ((s.passed c).src.records.get n).accepts (stripOf c) = true :=
    (SourceRec.accepts_iff _ _).mpr ⟨henabled, hformat, hline, hsegment⟩
  have hnext : ((s.passed c).src.states.get n).isAfter (stripOf c) = true := (SourceTrack.isAfter_iff _ _).mpr hafter
  obtain ⟨hfree, hwins, -, hpub⟩ := StoreManager.intake_keeps s.store (s.src.records.get n) n (stripOf c)
  refine ⟨_, (s.passed c).takeStrip n (stripOf c), exec_strip placeFirst hwhole hrun hlink hgood hkind, rfl, ?_, ?_, ?_, ?_⟩
  · rw [takeStrip_store]
    exact hwins
  · rw [takeStrip_store]
    exact hfree
  · rw [takeStrip_store]
    exact hpub
  · rw [stripArrival_open (s := s.passed c) hn haccepts hopen htag, if_pos hnext, acceptStrip_eq]
    rfl

/-! ### The start and the end of a frame (R50, R53, R56, R58) -/

/-- R56: a complete frame makes the source LIVE, and latches SOURCE_LIVE where it was not. -/
theorem sourceLive_eq (s : State) (n : Fin 32) {k : SourceTrack} (hk : k = s.src.states.get n) : s.sourceLive n =
    if k.state = .off ∨ k.state = .live
    then s.setTrack n { k with sinceStart := 0, state := if k.state = .off then .off else .live }
    else latch .sourceLive (s.setTrack n { k with sinceStart := 0, state := if k.state = .off then .off else .live }) := by
  unfold State.sourceLive
  simp only [← hk]
  split
  next h => simp [h]
  next h => simp [h]
  next h => simp [h]
  next h => simp [h]
  next h => simp [h]

theorem isComplete_iff (k : SourceTrack) (r : SourceRec) : k.isComplete r = true ↔
    r.sh * r.segments ≤ r.missingLimit + k.accepted := by
  rw [SourceTrack.isComplete, decide_eq_true_eq, SourceRec.strips]
  omega

/-- R53: a rejected frame end. -/
theorem endFrame_of_rejected {s : State} {n : Fin 32} {tag : Byte} (htag : (s.src.states.get n).tag = some tag)
    (h : (s.src.states.get n).isComplete (s.src.records.get n) = false) : s.endFrame n = { s with
      src := { s.src with states := s.src.states.set n { s.src.states.get n with
        frameOpen := false
        rejected := min 65535 ((s.src.states.get n).rejected + 1) } }
      store := s.store.frameEnd s.scene.active n tag false } := by
  rw [endFrame_eq, h, if_neg Bool.false_ne_true, State.closeFrame, htag]
  rfl

/-- R53, R56: a complete frame end. -/
theorem endFrame_of_complete {s : State} {n : Fin 32} {tag : Byte} (htag : (s.src.states.get n).tag = some tag)
    (h : (s.src.states.get n).isComplete (s.src.records.get n) = true) {u : State}
    (hu : u = { s with
      src := { s.src with states := s.src.states.set n { s.src.states.get n with
        frameOpen := false
        completed := ((s.src.states.get n).completed + 1) % 65536
        sinceStart := 0
        state := if (s.src.states.get n).state = .off then .off else .live } }
      store := s.store.frameEnd s.scene.active n tag true }) :
    s.endFrame n = if (s.src.states.get n).state = .off ∨ (s.src.states.get n).state = .live then u
      else latch .sourceLive u := by
  have hk : (s.src.states.get n).ended true = (s.closeFrame n true).src.states.get n := (Table.get_set_self ..).symm
  have hset : (s.closeFrame n true).setTrack n { (s.src.states.get n).ended true with
      sinceStart := 0
      state := if (s.src.states.get n).state = .off then .off else .live } = u := by
    rw [hu, State.setTrack, State.closeFrame, htag]
    simp only [State.setTrack, Table.set_set]
    rfl
  rw [endFrame_eq, h, if_pos rfl, sourceLive_eq _ n hk]
  exact congrArg₂ (fun a b : State => if (s.src.states.get n).state = .off ∨ (s.src.states.get n).state = .live then a
    else latch .sourceLive b) hset hset

theorem endFrame_runningStarts (s : State) (n : Fin 32) :
    ((s.endFrame n).src.states.get n).runningStarts = (s.src.states.get n).runningStarts := by
  have hclosed : ∀ complete, ((s.closeFrame n complete).src.states.get n).runningStarts =
      (s.src.states.get n).runningStarts := fun complete => by
    rw [show (s.closeFrame n complete).src.states.get n = (s.src.states.get n).ended complete from Table.get_set_self ..]
    rfl
  rw [endFrame_eq]
  split
  · rw [sourceLive_eq _ n rfl]
    split
    · exact (congrArg SourceTrack.runningStarts (Table.get_set_self ..)).trans (hclosed _)
    · rw [(latch_keeps _ _).2.2.1]
      exact (congrArg SourceTrack.runningStarts (Table.get_set_self ..)).trans (hclosed _)
  · exact hclosed _

/-- R50, R52: a frame is opened and its first strip accepted. -/
theorem openFrame_takeStrip (u : State) (n : Fin 32) {st : Strip} (hline : st.line = 0) (hsegment : st.segment = 0)
    {l starts : Nat} {active : Table WinRec 32} {r : SourceRec} (hl : u.timer.lineCount = l) (hactive : u.scene.active = active)
    (hr : u.src.records.get n = r) (hstarts : (u.src.states.get n).runningStarts = starts) :
    (u.openFrame n st.tag).takeStrip n st = { u with
      src := { u.src with states := u.src.states.set n { u.src.states.get n with
        tag := some st.tag
        frameOpen := true
        accepted := 1
        lastLine := 0
        lastSegment := 0
        startPhase := l
        runningStarts := min 15 (starts + 1) } }
      store := (u.store.frameStart active n st.tag).intake r n st } := by
  subst hl hactive hr hstarts
  simp only [State.takeStrip, State.openFrame, State.setTrack, Table.get_set_self, Table.set_set, SourceTrack.accept, hline,
    hsegment]
  rfl

theorem startFrame_eq (s : State) (n : Fin 32) (st : Strip) : s.startFrame n st =
    State.acceptStrip ((if (s.src.states.get n).frameOpen = true then s.endFrame n else s).openFrame n st.tag) n st := rfl

/-- Settles O41: the start by `startFrame_eq` and `openFrame_takeStrip`, the end by the two equations for `endFrame`. -/
theorem frameStartsAndEnds : Obligations.FrameStartsAndEnds := by
  unfold Obligations.FrameStartsAndEnds
  refine ⟨?_, fun s n k r tag hk hr htag => ?_⟩
  · intro s c placeFirst n hwhole hrun hlink hgood hkind hn henabled hformat hsh hsegments hline hsegment htag
    have haccepts : ((s.passed c).src.records.get n).accepts (stripOf c) = true :=
      (SourceRec.accepts_iff _ _).mpr ⟨henabled, hformat, hline ▸ hsh, hsegment ▸ hsegments⟩
    have hstart : ((s.passed c).src.states.get n).isStart (stripOf c) = true := by
      simp only [SourceTrack.isStart, hline, hsegment, decide_true, Bool.true_and, decide_eq_true_eq]
      exact htag
    obtain ⟨ended, hended⟩ : ∃ u : State, u = if (s.src.states.get n).frameOpen = true
      then State.endFrame { s with ring := s.ring.passed c } n else { s with ring := s.ring.passed c } := ⟨_, rfl⟩
    have hkept : ended.timer = s.timer ∧ ended.scene = s.scene ∧ ended.src.records = s.src.records ∧
        (ended.src.states.get n).runningStarts = (s.src.states.get n).runningStarts := by
      rw [hended]
      split
      · obtain ⟨htimer, hscene, -⟩ := endFrame_keeps n (s.passed c)
        exact ⟨htimer, hscene, endFrame_records (s.passed c) n, endFrame_runningStarts (s.passed c) n⟩
      · exact ⟨rfl, rfl, rfl, rfl⟩
    obtain ⟨htimer, hscene, hrecords, hstarts⟩ := hkept
    have hopened := openFrame_takeStrip ended n hline hsegment (by rw [htimer]) (by rw [hscene]) (by rw [hrecords]) hstarts
    refine ⟨_, ended, _, exec_strip placeFirst hwhole hrun hlink hgood hkind, hended, hopened, ?_⟩
    rw [stripArrival_start (s := s.passed c) hn haccepts hstart, startFrame_eq]
    have hlast : (0 + 1 = (s.src.records.get n).sh ∧ 0 + 1 = (s.src.records.get n).segments) ↔
        ((s.src.records.get n).sh = 1 ∧ (s.src.records.get n).segments = 1) := by omega
    have hclosed : (if ((s.passed c).src.states.get n).frameOpen = true then (s.passed c).endFrame n else s.passed c) = ended :=
      hended.symm
    have hrecord : (ended.openFrame n (stripOf c).tag).src.records.get n = s.src.records.get n := by
      rw [← hrecords]
      rfl
    rw [hclosed, acceptStrip_eq, hrecord, hline, hsegment]
    exact if_congr hlast rfl rfl
  · subst hk hr
    refine ⟨fun h => endFrame_of_rejected htag ?_, fun h => ⟨_, rfl, endFrame_of_complete htag ?_ rfl⟩⟩
    · rw [Bool.eq_false_iff, ne_eq, isComplete_iff]
      omega
    · exact (isComplete_iff _ _).mpr h

end Sys2Proof.Machine
end

section
/-! What source frame boundaries and frame marks do to the buffers of each window (R78 to R87). -/

namespace Sys2Proof.Machine

/-! ### One buffer -/

theorem holds_writing_iff (w : WinStore) (tag : Byte) :
    w.holds (Role.isWriting tag) = true ↔ ∃ b ∈ w.bufs, b.role = .filling (.writing tag) := by
  simp [WinStore.holds, Role.isWriting]

theorem holds_ready_iff (w : WinStore) :
    w.holds (fun r => decide (r = .ready)) = true ↔ ∃ b ∈ w.bufs, b.role = .ready := by simp [WinStore.holds]

theorem Role.started_eq (tag : Byte) (r : Role) :
    r.started tag = if r = .filling .armed then .filling (.writing tag) else r := by
  cases r with
  | filling arm => cases arm <;> simp [Role.started]
  | _ => simp [Role.started]

theorem Buffer.with_role_if (b : Buffer) (c : Prop) [Decidable c] (r : Role) :
    ({ b with role := if c then r else b.role } : Buffer) = if c then { b with role := r } else b := by
  split <;> rfl

theorem map_eq_self {f : Buffer → Buffer} {l : List Buffer} (h : ∀ b ∈ l, f b = b) : l.map f = l :=
  (List.map_congr_left h).trans (List.map_id' l)

/-! ### Starts and ends of a source frame (R79 to R82) -/

theorem onStart_live {w : WinStore} {s : Fin 32} (hfeed : w.feeding = some s) (tag : Byte) :
    w.onStart s tag .live = { w with
      bufs := w.bufs.map fun b =>
        if b.role = .filling .armed then { b with role := .filling (.writing tag) } else b } := by
  rw [WinStore.onStart, if_pos ⟨hfeed, rfl⟩]
  simp only [Role.started_eq, Buffer.with_role_if]

theorem onStart_other {w : WinStore} {s : Fin 32} {mode : DisplayMode} (h : w.feeding ≠ some s ∨ mode ≠ .live) (tag : Byte) :
    w.onStart s tag mode = w := if_neg fun hs => h.elim (· hs.1) (· hs.2)

theorem onReject_eq {w : WinStore} {s : Fin 32} (hfeed : w.feeding = some s) (tag : Byte) :
    w.onReject s tag = { w with
      bufs := w.bufs.map fun b =>
        if b.role = .filling (.writing tag) then { b with role := .filling .armed } else b } := by
  rw [WinStore.onReject, if_pos hfeed]
  simp only [Role.isWriting, decide_eq_true_eq]

theorem onReject_other {w : WinStore} {s : Fin 32} {tag : Byte}
    (h : w.feeding ≠ some s ∨ ∀ b ∈ w.bufs, b.role ≠ .filling (.writing tag)) : w.onReject s tag = w := by
  by_cases hfeed : w.feeding = some s
  · rw [onReject_eq hfeed, map_eq_self fun b hb => if_neg (h.resolve_left (fun hn => hn hfeed) b hb)]
  · exact if_neg hfeed

theorem onComplete_other {w : WinStore} {s : Fin 32} (h : w.feeding ≠ some s) (tag : Byte) (mode : DisplayMode) :
    w.onComplete s tag mode = w := if_neg h

/-- R80: without a buffer WRITING the tag a completion changes a window of one buffer alone, and that one in LIVE. -/
theorem onComplete_unwritten {w : WinStore} {s : Fin 32} {tag : Byte} {mode : DisplayMode}
    (h : w.bufs.length = 1 ∨ ∀ b ∈ w.bufs, b.role ≠ .filling (.writing tag)) (hone : w.bufs.length = 1 → mode ≠ .live) :
    w.onComplete s tag mode = w := by
  have hnone : ¬(w.bufs.length = 3 ∧ w.holds (Role.isWriting tag) = true) ∧
      ¬(w.bufs.length = 2 ∧ w.holds (Role.isWriting tag) = true) := by
    rw [holds_writing_iff]
    refine ⟨fun ⟨hlen, b, hb, hrole⟩ => ?_, fun ⟨hlen, b, hb, hrole⟩ => ?_⟩ <;>
      exact h.elim (fun h1 => by omega) fun hn => hn b hb hrole
  unfold WinStore.onComplete
  split
  · rw [if_neg hnone.1, if_neg hnone.2, if_neg fun hl => hone hl.1 hl.2]
  · rfl

theorem onComplete_one {w : WinStore} {s : Fin 32} (hfeed : w.feeding = some s) (h1 : w.bufs.length = 1) (tag : Byte) :
    w.onComplete s tag .live = { w with
      shown := (w.shown + 1) % 65536
      bufs := w.bufs.map fun b => if b.role = .showing then { b with mark := true } else b } := by
  rw [WinStore.onComplete, if_pos hfeed, if_neg fun h => by omega, if_neg fun h => by omega, if_pos ⟨h1, rfl⟩]
  rfl

theorem onComplete_two {w : WinStore} {s : Fin 32} (hfeed : w.feeding = some s) (h2 : w.bufs.length = 2) (tag : Byte)
    (mode : DisplayMode) : w.onComplete s tag mode = { w with
      bufs := w.bufs.map fun b =>
        if b.role = .filling (.writing tag) then { b with role := .ready, mark := true } else b } := by
  by_cases hwriting : ∃ b ∈ w.bufs, b.role = .filling (.writing tag)
  · rw [WinStore.onComplete, if_pos hfeed, if_neg fun h => by omega, if_pos ⟨h2, (holds_writing_iff w tag).mpr hwriting⟩]
    simp only [Role.isWriting, decide_eq_true_eq]
  · have hnone : ∀ b ∈ w.bufs, b.role ≠ .filling (.writing tag) := fun b hb hrole => hwriting ⟨b, hb, hrole⟩
    rw [onComplete_unwritten (.inr hnone) fun h => by omega, map_eq_self fun b hb => if_neg (hnone b hb)]

/-- R80: a completion in a window of three buffers that has an older picture READY drops that one. -/
theorem onComplete_three_ready {w : WinStore} {s : Fin 32} (hfeed : w.feeding = some s) (h3 : w.bufs.length = 3) {tag : Byte}
    (hwriting : ∃ b ∈ w.bufs, b.role = .filling (.writing tag)) (hready : ∃ b ∈ w.bufs, b.role = .ready) (mode : DisplayMode) :
    w.onComplete s tag mode = { w with
      dropped := (w.dropped + 1) % 65536
      bufs := w.bufs.map fun b =>
        if b.role = .filling (.writing tag) then { b with role := .ready, mark := true }
        else if b.role = .ready then { b with role := .filling .armed } else b } := by
  rw [WinStore.onComplete, if_pos hfeed, if_pos ⟨h3, (holds_writing_iff w tag).mpr hwriting⟩]
  have hbuffer : Buffer.completed tag true = fun b =>
      if b.role = .filling (.writing tag) then { b with role := .ready, mark := true }
      else if b.role = .ready then { b with role := .filling .armed } else b := funext fun b => by
    simp [Buffer.completed, Role.isWriting]
  simp only [(holds_ready_iff w).mpr hready, hbuffer, if_true]
  rfl

theorem onComplete_three_spare {w : WinStore} {s : Fin 32} (hfeed : w.feeding = some s) (h3 : w.bufs.length = 3) {tag : Byte}
    (hwriting : ∃ b ∈ w.bufs, b.role = .filling (.writing tag)) (hready : ∀ b ∈ w.bufs, b.role ≠ .ready) (mode : DisplayMode) :
    w.onComplete s tag mode = { w with
      bufs := w.bufs.map fun b =>
        if b.role = .filling (.writing tag) then { b with role := .ready, mark := true }
        else if b.role = .spare then { b with role := .filling .armed } else b } := by
  have hnone : w.holds (fun r => decide (r = .ready)) = false := by
    rw [Bool.eq_false_iff, ne_eq, holds_ready_iff]
    exact fun ⟨b, hb, hrole⟩ => hready b hb hrole
  rw [WinStore.onComplete, if_pos hfeed, if_pos ⟨h3, (holds_writing_iff w tag).mpr hwriting⟩]
  simp only [hnone, Bool.false_eq_true, if_false]
  refine congrArg (fun bufs => ({ w with bufs := bufs } : WinStore)) (List.map_congr_left fun b hb => ?_)
  simp [Buffer.completed, Role.isWriting, hready b hb]

/-- Settles O42: each report window by window, by the equations above. -/
theorem bufferReports : Obligations.BufferReports := by
  unfold Obligations.BufferReports
  refine fun m active src tag => ⟨rfl, fun complete => rfl, fun k w started completed rejected hw hs hc hr => ?_⟩
  rw [StoreManager.frameStart, StoreManager.mapWins_get, ← hw] at hs
  rw [StoreManager.frameEnd, StoreManager.mapWins_get, ← hw, if_pos rfl] at hc
  rw [StoreManager.frameEnd, StoreManager.mapWins_get, ← hw, if_neg Bool.false_ne_true] at hr
  subst hs hc hr
  refine ⟨fun hfeed => ⟨onStart_other (.inl hfeed) tag, onComplete_other hfeed tag _, onReject_other (.inl hfeed)⟩,
    fun hmode => ⟨onStart_other (.inr hmode) tag, fun h1 => onComplete_unwritten (.inl h1) fun _ => hmode⟩,
    fun hfeed hmode => hmode ▸ onStart_live hfeed tag,
    fun hnone => ⟨onReject_other (.inr hnone), fun h1 => onComplete_unwritten (.inr hnone) fun h => absurd h h1⟩,
    fun hfeed => onReject_eq hfeed tag,
    fun hfeed h3 hwriting => ⟨fun hready => onComplete_three_ready hfeed h3 hwriting hready _,
      fun hready => onComplete_three_spare hfeed h3 hwriting hready _⟩,
    fun hfeed h2 => onComplete_two hfeed h2 tag _, fun hfeed h1 hmode => hmode ▸ onComplete_one hfeed h1 tag⟩

/-! ### Re-arming, switches and swaps (R83 to R87) -/

theorem rearm_eq (w : WinStore) : w.rearm = { w with bufs := w.rearmedBufs } := by
  have hbufs : w.rearm.bufs = w.rearmedBufs := by
    refine List.map_congr_left fun b _ => ?_
    obtain ⟨pages, role, mark⟩ := b
    cases role with
    | filling arm => simp [Role.rearmed, Role.isFilling]
    | ready => simp [Role.rearmed, spareRole]
    | showing => simp [Role.rearmed, Role.isFilling]
    | spare => simp [Role.rearmed, Role.isFilling]
  rw [← hbufs]
  rfl

theorem switched_of_bufs {w : WinStore} (h : w.bufs ≠ []) (feed : Option (Fin 32)) :
    w.switched feed = { w with bufs := w.rearmedBufs, feeding := feed } := by
  rw [WinStore.switched, if_neg h, rearm_eq]

theorem HandOver.feeds_iff (h : HandOver) (n : Fin 32) (feed : Option (Fin 32)) : h.Feeds n feed ↔ feed = h.feed n := by
  unfold HandOver.Feeds HandOver.feed WinRec.feed WinRec.tours
  simp only [Bool.and_eq_true, decide_eq_true_eq]

theorem Table.mem_rows {α : Type} {n : Nat} {t : Table α n} {a : α} : a ∈ t.rows ↔ ∃ i, t.get i = a := by
  refine ⟨fun h => ?_, fun ⟨i, hi⟩ => hi ▸ List.get_mem _ _⟩
  obtain ⟨j, hj⟩ := List.mem_iff_get.mp h
  exact ⟨j.cast t.len, hj⟩

theorem HandOver.allocates_iff (h : HandOver) :
    h.allocates = true ↔ (h.geoChanged = true ∨ ∃ n, (h.changes.get n).any = true) := by
  simp only [HandOver.allocates, Bool.or_eq_true, List.any_eq_true, Table.mem_rows]
  exact or_congr .rfl ⟨fun ⟨_, ⟨n, hn⟩, hc⟩ => ⟨n, hn ▸ hc⟩, fun ⟨n, hn⟩ => ⟨_, ⟨n, rfl⟩, hn⟩⟩

/-- R84: a LIVE window with a READY buffer shows it. -/
theorem atMark_shows {w : WinStore} (hlen : 2 ≤ w.bufs.length) (hready : ∃ b ∈ w.bufs, b.role = .ready) (live : Bool) :
    w.atMark .live live = { w with
      shown := (w.shown + 1) % 65536
      bufs := w.bufs.map fun b =>
        if b.role = .ready then { b with role := .showing }
        else if b.role = .showing then { b with role := if w.bufs.length = 2 then .filling .armed else .spare }
        else b } := by
  rw [WinStore.atMark, if_pos ⟨hlen, rfl⟩, if_pos ((holds_ready_iff w).mpr hready)]
  refine congrArg (fun bufs => ({ w with shown := (w.shown + 1) % 65536, bufs := bufs } : WinStore))
    (List.map_congr_left fun b _ => ?_)
  obtain ⟨pages, role, mark⟩ := b
  cases role <;> simp [Role.swapped, spareRole]

/-- R85: a LIVE window without a READY buffer counts a repeat while its source is LIVE. -/
theorem atMark_repeats {w : WinStore} (hlen : 2 ≤ w.bufs.length) (hready : ∀ b ∈ w.bufs, b.role ≠ .ready) (live : Bool) :
    w.atMark .live live = if live = true then { w with repeated := (w.repeated + 1) % 65536 } else w := by
  have hnone : ¬w.holds (fun r => decide (r = .ready)) = true := by
    rw [holds_ready_iff]
    exact fun ⟨b, hb, hrole⟩ => hready b hb hrole
  rw [WinStore.atMark, if_pos ⟨hlen, rfl⟩, if_neg hnone]
  rfl

theorem atMark_still {w : WinStore} {mode : DisplayMode} (h : mode ≠ .live ∨ w.bufs.length < 2) (live : Bool) :
    w.atMark mode live = w := if_neg fun hs => h.elim (· hs.2) (Nat.not_lt.mpr hs.1)

/-- Settles O43: the four steps of R83 in order, window by window. -/
theorem buffersAtMark : Obligations.BuffersAtMark := by
  unfold Obligations.BuffersAtMark
  intro m t h states ht
  have hm2 : (if h.allocates = true then (m.markSwitches h).allocate h else m.markSwitches h) =
      if h.geoChanged = true ∨ (∃ n, (h.changes.get n).any = true) then (m.markSwitches h).allocate h
      else m.markSwitches h := if_congr h.allocates_iff rfl rfl
  obtain ⟨m2, hm2'⟩ : ∃ m2, m2 = if h.allocates = true then (m.markSwitches h).allocate h else m.markSwitches h := ⟨_, rfl⟩
  have htm2 : t = ((m2.freezeEntry h).swaps h states).publish h := by rw [ht, hm2']; rfl
  refine ⟨m.markSwitches h, m2, rfl, fun n w feed hw hfeeds => ?_, hm2'.trans hm2, by rw [htm2]; rfl,
    fun n w mode hw hmode => ?_⟩
  · rw [HandOver.feeds_iff] at hfeeds
    rw [StoreManager.markSwitches, StoreManager.mapWins_get, ← hw, ← hfeeds]
    refine ⟨fun hkept => ?_, fun hbufs hswitch => ?_⟩
    · split
      next hs =>
        rcases hkept with hbufs | hkept
        · exact if_pos hbufs
        · simp [hkept] at hs
      next => rfl
    · rw [if_pos (by simpa using hswitch), switched_of_bufs hbufs]
  · have hget : t.wins.get n = (if (h.active.get n).mode = .freeze ∧ (h.changes.get n).mode = true then w.rearm else w).atMark
        (h.active.get n).mode ((if (h.active.get n).mode = .freeze ∧ (h.changes.get n).mode = true then w.rearm else w).feeding.elim
          false fun k => decide ((states.get k).state = .live)) := by
      rw [htm2, hw]
      show ((m2.freezeEntry h).swaps h states).wins.get n = _
      rw [StoreManager.swaps, StoreManager.mapWins_get, StoreManager.freezeEntry, StoreManager.mapWins_get]
    rw [hget, ← hmode]
    refine ⟨fun hfreeze hchange => ?_, fun hfreeze hchange => ?_, fun hfreeze hstill => ?_, fun hlive hlen =>
      ⟨fun hready => ?_, fun hready => ?_⟩⟩
    · rw [if_pos ⟨hfreeze, hchange⟩, atMark_still (.inl (by rw [hfreeze]; decide)), rearm_eq]
    · rw [if_neg (by simp [hchange]), atMark_still (.inl (by rw [hfreeze]; decide))]
    · rw [if_neg fun hs => hfreeze hs.1, atMark_still hstill]
    · rw [if_neg (by simp [hlive]), hlive, atMark_shows hlen hready]
    · rw [if_neg (by simp [hlive]), hlive, atMark_repeats hlen hready]
      refine if_congr ?_ rfl rfl
      cases w.feeding <;> simp

end Sys2Proof.Machine
end

section
/-! An allocation (R88 to R92): what each window keeps or gives back, the three passes over the active list turn by turn, and
the degraded count. -/

namespace Sys2Proof.Machine

/-! ### The keep rule (R88, R89) -/

theorem DisplayMode.stores_iff (m : DisplayMode) : m.stores = true ↔ (m = .live ∨ m = .freeze) := by
  cases m <;> simp [DisplayMode.stores]

theorem HandOver.needs_iff (h : HandOver) (n : Fin 32) (v : VisRect) : h.Needs n v ↔ h.storeRect n = some v := by
  unfold HandOver.Needs HandOver.storeRect
  simp only [Option.ite_none_right_eq_some, Bool.and_eq_true, DisplayMode.stores_iff, and_assoc]

theorem HandOver.keeps_iff (h : HandOver) (n : Fin 32) {w : WinStore} : h.keeps n w = true ↔ h.Keeps n w := by
  have htours : h.storeRect n = some w.sized → (h.active.get n).enabled = true := fun hv => ((h.needs_iff n _).mpr hv).1
  unfold HandOver.keeps HandOver.Keeps
  rw [h.needs_iff]
  simp only [WinRec.tours, Bool.and_eq_true, Bool.or_eq_true, Bool.not_eq_true', decide_eq_true_eq, and_assoc]
  refine and_congr_right fun hv => and_congr_right fun _ => and_congr_right fun _ => and_congr_right fun _ => ?_
  simp [htours hv]

theorem HandOver.keeps_congr (h : HandOver) (n : Fin 32) {w v : WinStore} (hs : v.sized = w.sized) : h.keeps n v = h.keeps n w := by
  rw [HandOver.keeps, HandOver.keeps, hs]

theorem rearmedBufs_eq_nil {w : WinStore} : w.rearmedBufs = [] ↔ w.bufs = [] := List.map_eq_nil_iff

/-- R88: the windows after those that moved are re-armed. -/
theorem rearmMoved_get (m : StoreManager) (h : HandOver) (n : Fin 32) : (m.rearmMoved h).wins.get n =
    if (m.wins.get n).bufs ≠ [] ∧ h.keeps n (m.wins.get n) = true ∧ (h.changes.get n).rect = true
    then { m.wins.get n with bufs := (m.wins.get n).rearmedBufs } else m.wins.get n := by
  rw [StoreManager.rearmMoved, StoreManager.mapWins_get, rearm_eq]

/-- R88, R89: the Store Manager when the windows that lose their buffers have given them back. -/
def StoreManager.settled (m : StoreManager) (h : HandOver) : StoreManager := (m.rearmMoved h).freeLosers h

theorem settled_get (m : StoreManager) (h : HandOver) (n : Fin 32) :
    (m.settled h).wins.get n = h.left n ((m.rearmMoved h).wins.get n) := by
  rw [StoreManager.settled, freeLosers_eq, Table.get_ofFn]

theorem settled_of_kept {m : StoreManager} {h : HandOver} {n : Fin 32} (hbufs : (m.wins.get n).bufs ≠ [])
    (hkeep : h.keeps n (m.wins.get n) = true) :
    h.freed n ((m.rearmMoved h).wins.get n) = [] ∧ (m.settled h).wins.get n = if (h.changes.get n).rect = true
      then { m.wins.get n with bufs := (m.wins.get n).rearmedBufs } else m.wins.get n := by
  have hsized : ((m.rearmMoved h).wins.get n).sized = (m.wins.get n).sized := by
    rw [rearmMoved_get]
    split <;> rfl
  have hkeep' : h.keeps n ((m.rearmMoved h).wins.get n) = true := (h.keeps_congr n hsized).trans hkeep
  rw [settled_get, HandOver.left, HandOver.freed, if_neg (by simp [hkeep']), if_neg (by simp [hkeep']), rearmMoved_get]
  simp [hbufs, hkeep]

theorem settled_of_lost {m : StoreManager} {h : HandOver} {n : Fin 32} (hbufs : (m.wins.get n).bufs ≠ [])
    (hkeep : h.keeps n (m.wins.get n) = false) :
    h.freed n ((m.rearmMoved h).wins.get n) = (m.wins.get n).listed.flatMap (·.pages) ∧
    (m.settled h).wins.get n = { m.wins.get n with bufs := [], feeding := none } := by
  have hget : (m.rearmMoved h).wins.get n = m.wins.get n := by rw [rearmMoved_get, if_neg (by simp [hkeep])]
  rw [settled_get, HandOver.left, HandOver.freed, hget, if_pos ⟨hbufs, hkeep⟩, if_pos ⟨hbufs, hkeep⟩]
  exact ⟨rfl, rfl⟩

theorem settled_of_none {m : StoreManager} {h : HandOver} {n : Fin 32} (hbufs : (m.wins.get n).bufs = []) :
    h.freed n ((m.rearmMoved h).wins.get n) = [] ∧ (m.settled h).wins.get n = m.wins.get n := by
  have hget : (m.rearmMoved h).wins.get n = m.wins.get n := by rw [rearmMoved_get, if_neg (by simp [hbufs])]
  rw [settled_get, HandOver.left, HandOver.freed, hget, if_neg (by simp [hbufs]), if_neg (by simp [hbufs])]
  exact ⟨rfl, rfl⟩

theorem settled_eq (m : StoreManager) (h : HandOver) : m.settled h = { m with
    free := m.free ++ (indices 32).flatMap fun n => h.freed n ((m.rearmMoved h).wins.get n)
    wins := (m.settled h).wins } := by
  rw [StoreManager.settled, freeLosers_eq]
  rfl

/-! ### The passes (R90, R91) -/

/-- R90: the Store Manager after `k` turns, `len` of them to a pass. -/
def StoreManager.turns (m : StoreManager) (h : HandOver) : Nat → StoreManager
  | 0 => m
  | k + 1 => match h.activeList[k % h.activeList.length]? with
    | some n => (m.turns h k).serve h (k / h.activeList.length) n
    | none => m.turns h k

theorem turns_succ (m : StoreManager) (h : HandOver) {pass j : Nat} {n : Fin 32} (hn : h.activeList[j]? = some n) :
    m.turns h (pass * h.activeList.length + j + 1) =
      (m.turns h (pass * h.activeList.length + j)).serve h pass n := by
  obtain ⟨hj, -⟩ := List.getElem?_eq_some_iff.mp hn
  have hmod : (pass * h.activeList.length + j) % h.activeList.length = j := by
    rw [Nat.mul_add_mod', Nat.mod_eq_of_lt hj]
  have hdiv : (pass * h.activeList.length + j) / h.activeList.length = pass := by
    rw [Nat.mul_comm, Nat.mul_add_div (Nat.zero_lt_of_lt hj), Nat.div_eq_of_lt hj, Nat.add_zero]
  rw [StoreManager.turns, hmod, hdiv, hn]

/-- R90: a pass is its turns. -/
theorem turns_pass (m : StoreManager) (h : HandOver) (pass : Nat) :
    m.turns h ((pass + 1) * h.activeList.length) = (m.turns h (pass * h.activeList.length)).servePass h pass := by
  have hpart : ∀ j, j ≤ h.activeList.length → m.turns h (pass * h.activeList.length + j) =
      (h.activeList.take j).foldl (fun acc n => acc.serve h pass n) (m.turns h (pass * h.activeList.length)) := by
    intro j hj
    induction j with
    | zero => rfl
    | succ j ih =>
      have hn : h.activeList[j]? = some h.activeList[j] := List.getElem?_eq_getElem hj
      rw [← Nat.add_assoc, turns_succ m h hn, ih (Nat.le_of_succ_le hj), List.take_add_one, hn, List.foldl_append]
      rfl
  rw [Nat.succ_mul, hpart _ le_rfl, List.take_length]
  rfl

theorem allocate_eq (m : StoreManager) (h : HandOver) : m.allocate h =
    { (m.settled h).turns h (3 * h.activeList.length) with
      degraded := ((m.settled h).turns h (3 * h.activeList.length)).countDegraded h } := by
  have hpasses : (m.settled h).turns h (3 * h.activeList.length) =
      (((m.settled h).servePass h 0).servePass h 1).servePass h 2 := by
    rw [turns_pass, turns_pass, turns_pass, Nat.zero_mul]
    rfl
  rw [hpasses]
  rfl

theorem serve_of_not {m : StoreManager} {h : HandOver} {held : Nat} {n : Fin 32}
    (hnot : ∀ v, h.Needs n v → (m.wins.get n).bufs.length ≠ held ∨ m.free.length < pagesPerBuffer v) : m.serve h held n = m := by
  rcases serve_cases m h held n with heq | ⟨v, hv, hlen, hpages, -⟩
  · exact heq
  · rcases hnot v ((h.needs_iff n v).mpr hv) with hn | hn <;> omega

theorem serve_of_needs {m : StoreManager} {h : HandOver} {held : Nat} {n : Fin 32} {v : VisRect} (hv : h.Needs n v)
    (hlen : (m.wins.get n).bufs.length = held) (hpages : pagesPerBuffer v ≤ m.free.length) : m.serve h held n = m.give h n v := by
  unfold StoreManager.serve
  rw [(h.needs_iff n v).mp hv]
  exact if_pos ⟨hlen, hpages⟩

theorem givenRole_of_held {w : WinStore} {held : Nat} (hlen : w.bufs.length = held) :
    (held = 0 → givenRole w = .showing) ∧ (held = 1 → givenRole w = .filling .armed) ∧
    (held = 2 → givenRole w = if ∃ x ∈ w.bufs, x.role.isFilling = true then .spare else .filling .armed) := by
  have hfilling : w.holds Role.isFilling = true ↔ ∃ x ∈ w.bufs, x.role.isFilling = true := by simp [WinStore.holds]
  unfold givenRole
  refine ⟨fun h => if_pos (by omega), fun h => ?_, fun h => ?_⟩
  · rw [if_neg (by omega), if_pos (by omega)]
  · rw [if_neg (by omega), if_neg (by omega)]
    exact if_congr hfilling rfl rfl

theorem give_eq {m : StoreManager} {h : HandOver} {n : Fin 32} {v : VisRect} {held : Nat}
    (hlen : (m.wins.get n).bufs.length = held) : m.give h n v = { m with
      free := m.free.drop (pagesPerBuffer v)
      mem := m.mem.fillPages (m.free.take (pagesPerBuffer v)) (h.active.get n).fill.word
      wins := m.wins.set n { m.wins.get n with
        bufs := (m.wins.get n).bufs ++ [⟨m.free.take (pagesPerBuffer v), givenRole (m.wins.get n), false⟩]
        feeding := if held = 0 then h.feed n else (m.wins.get n).feeding
        sized := if held = 0 then v else (m.wins.get n).sized } } := by
  subst hlen
  simp only [StoreManager.give, decide_eq_true_eq]

/-- Settles O44: what is kept by `settled_of_*`, the turns by `turns_succ`, and the count by `allocate_eq`. -/
theorem allocationServes : Obligations.AllocationServes := by
  unfold Obligations.AllocationServes
  intro m h len hlen
  subst hlen
  refine ⟨fun n => h.freed n ((m.rearmMoved h).wins.get n), (m.settled h).turns h,
    (indices 32).filter fun n => (h.storeRect n).isSome &&
      decide ((((m.settled h).turns h (3 * h.activeList.length)).wins.get n).bufs.length < 3),
    fun n w hw => ⟨fun hbufs => ?_, fun hbufs hkeep => ?_, fun hbufs hkeep => ?_⟩, settled_eq m h,
    fun pass j n b w hpass hn hb hw => ⟨fun hnot => ?_, fun v hv hheld hpages => ?_⟩, allocate_eq m h,
    (indices_nodup 32).filter _, fun n => ?_⟩
  · subst hw
    exact (settled_of_none hbufs).symm
  · subst hw
    exact settled_of_kept hbufs ((h.keeps_iff n).mpr hkeep)
  · subst hw
    obtain ⟨hfreed, hget⟩ := settled_of_lost (h := h) hbufs (by
      rw [Bool.eq_false_iff, ne_eq, h.keeps_iff]
      exact hkeep)
    have hget' : ((m.settled h).turns h 0).wins.get n = _ := hget
    refine ⟨hfreed, ?_⟩
    rw [hget']
  · subst hb hw
    rw [turns_succ _ h hn, serve_of_not hnot]
  · subst hb hw
    obtain ⟨hzero, hone, htwo⟩ := givenRole_of_held hheld
    refine ⟨givenRole _, h.feed n, (h.feeds_iff n _).mpr rfl, hzero, hone, htwo, ?_⟩
    rw [turns_succ _ h hn, serve_of_needs hv hheld hpages, give_eq hheld]
  · simp only [List.mem_filter, mem_indices, true_and, Bool.and_eq_true, decide_eq_true_eq, Option.isSome_iff_exists,
      ← h.needs_iff, exists_and_right]

end Sys2Proof.Machine
end

section
/-! The fields of delivered records by their bytes, and when a record is legal (R167, Tables 11-3 to 11-5; R2, R46, R123,
R135). -/

namespace Sys2Proof.Machine

/-! ### Codes -/

theorem DisplayMode.ofCode_eq (n : Nat) : DisplayMode.ofCode n = [DisplayMode.live, .freeze, .solid, .pattern, .hidden][n]? := by
  match n with
  | 0 | 1 | 2 | 3 | 4 => rfl
  | n + 5 => rfl

theorem PixFormat.ofCode_eq (n : Nat) : PixFormat.ofCode n = [PixFormat.mono8, .rgb8, .rgb10][n]? := by
  match n with
  | 0 | 1 | 2 => rfl
  | n + 3 => rfl

theorem Action.ofCode_eq (n : Nat) :
    Action.ofCode n = [Action.commit, .recall, .source, .raise, .blank, .highlight][n]? := by
  match n with
  | 0 | 1 | 2 | 3 | 4 | 5 => rfl
  | n + 6 => rfl

theorem EdgeMode.ofCode_eq (n : Nat) : EdgeMode.ofCode n = [EdgeMode.level, .rising, .falling, .any][n]? := by
  match n with
  | 0 | 1 | 2 | 3 => rfl
  | n + 4 => rfl

theorem CueMode.ofCode_eq (n : Nat) : CueMode.ofCode n = [CueMode.once, .repeating][n]? := by
  match n with
  | 0 | 1 => rfl
  | n + 2 => rfl

theorem boolOfCode_eq (n : Nat) : boolOfCode n = [false, true][n]? := by
  match n with
  | 0 | 1 => rfl
  | n + 2 => rfl

theorem eq_yesNo_of_boolOfCode {b : Byte} {e : Bool} (h : boolOfCode b.toNat = some e) : b = yesNo e := by
  refine BitVec.eq_of_toNat_eq ?_
  generalize b.toNat = n at h ⊢
  match n, h with
  | 0, h => cases h; rfl
  | 1, h => cases h; rfl

theorem index?_eq_none {n k : Nat} : index? n k = none ↔ n ≤ k := by
  unfold index?
  split <;> simp <;> omega

theorem index?_eq_some {n k : Nat} {i : Fin n} (h : index? n k = some i) : i.val = k := by
  unfold index? at h
  split at h
  · cases h
    rfl
  · cases h

/-! ### Fields -/

theorem extractLsb'_ofNat_10 (w k : Nat) (hk : k + 10 ≤ 32) :
    (BitVec.ofNat 32 w).extractLsb' k 10 = BitVec.ofNat 10 (w / 2 ^ k) := by
  refine BitVec.eq_of_getLsbD_eq fun i hi => ?_
  rw [BitVec.getLsbD_extractLsb', BitVec.getLsbD_ofNat, BitVec.getLsbD_ofNat, Nat.testBit_div_two_pow]
  simp [hi, show k + i < 32 by omega, Nat.add_comm]

theorem colourAt_eq {l : List Byte} {i w : Nat} (hw : w = field l i 4) :
    colourAt l i = ⟨BitVec.ofNat 10 (w / 2 ^ 20), BitVec.ofNat 10 (w / 2 ^ 10), BitVec.ofNat 10 w⟩ := by
  rw [colourAt, ← hw, Colour.ofWord, extractLsb'_ofNat_10 w 20 (by decide), extractLsb'_ofNat_10 w 10 (by decide),
    extractLsb'_ofNat_10 w 0 (by decide), Nat.pow_zero, Nat.div_one]

theorem indexOf_val (n : Nat) [NeZero n] (k : Nat) : (indexOf n k).val = k % n := rfl

/-! ### Window records (Table 11-4, Table 1-2) -/

theorem WinRec.unpack_none_iff (l : List Byte) :
    WinRec.unpack l = none ↔ (4 < (byteAt l 1).toNat ∨ 31 < (byteAt l 2).toNat) := by
  have hmode : DisplayMode.ofCode (byteAt l 1).toNat = none ↔ 4 < (byteAt l 1).toNat := by
    rw [DisplayMode.ofCode_eq, List.getElem?_eq_none_iff]
    rfl
  have hsource : index? 32 (byteAt l 2).toNat = none ↔ 31 < (byteAt l 2).toNat := index?_eq_none
  rw [← hmode, ← hsource]
  cases hm : DisplayMode.ofCode (byteAt l 1).toNat <;> cases hs : index? 32 (byteAt l 2).toNat <;>
    simp [WinRec.unpack, hm, hs]

/-- Table 11-4: the record that delivered bytes spell, given its two coded fields. -/
theorem WinRec.unpack_eq_some {l : List Byte} {r : WinRec} (h : WinRec.unpack l = some r) :
    DisplayMode.ofCode (byteAt l 1).toNat = some r.mode ∧ index? 32 (byteAt l 2).toNat = some r.source ∧ r = { r with
      enabled := (byteAt l 0).getLsbD 7
      pinned := (byteAt l 0).getLsbD 6
      tourLen := (byteAt l 3).toNat / 16
      tourList := Table.ofFn fun i => indexOf 32 (unpackField 5 8 (field l 23 5) i.val)
      dwell := field l 7 2
      x := field l 9 2
      y := field l 11 2
      w := field l 13 2
      h := field l 15 2
      cx := unpackField 12 4 (field l 17 6) 0
      cy := unpackField 12 4 (field l 17 6) 1
      cw := unpackField 12 4 (field l 17 6) 2 + 1
      ch := unpackField 12 4 (field l 17 6) 3 + 1
      loss := if (byteAt l 0).getLsbD 5 then .fill else .hold
      fill := colourAt l 28
      borderWidth := (byteAt l 3).toNat % 16
      border := colourAt l 32
      stale := colourAt l 36
      alarm := colourAt l 40
      capPlace := if (byteAt l 0).getLsbD 4 then .bottom else .top
      capSize := (byteAt l 0).toNat / 4 % 4
      capFg := colourAt l 44
      capBg := colourAt l 48
      capLen := (byteAt l 4).toNat
      capText := Table.ofFn fun i => indexOf 128 (unpackField 7 32 (field l 52 28) i.val)
      revision := 0 } := by
  cases hm : DisplayMode.ofCode (byteAt l 1).toNat with
  | none => simp [WinRec.unpack, hm] at h
  | some mode =>
    cases hs : index? 32 (byteAt l 2).toNat with
    | none => simp [WinRec.unpack, hm, hs] at h
    | some source =>
      simp only [WinRec.unpack, hm, hs, Option.bind_eq_bind, Option.bind_some, Option.pure_def, Option.some.injEq] at h
      subst h
      exact ⟨rfl, rfl, rfl⟩

/-! ### Source, setup and trigger records -/

theorem SourceRec.unpack_none_iff (l : List Byte) :
    SourceRec.unpack l = none ↔ (1 < (byteAt l 0).toNat ∨ 2 < (byteAt l 1).toNat) := by
  have henabled : boolOfCode (byteAt l 0).toNat = none ↔ 1 < (byteAt l 0).toNat := by
    rw [boolOfCode_eq, List.getElem?_eq_none_iff]
    rfl
  have hformat : PixFormat.ofCode (byteAt l 1).toNat = none ↔ 2 < (byteAt l 1).toNat := by
    rw [PixFormat.ofCode_eq, List.getElem?_eq_none_iff]
    rfl
  rw [← henabled, ← hformat]
  cases he : boolOfCode (byteAt l 0).toNat <;> cases hf : PixFormat.ofCode (byteAt l 1).toNat <;>
    simp [SourceRec.unpack, he, hf]

theorem SourceRec.unpack_eq_some {l : List Byte} {r : SourceRec} (h : SourceRec.unpack l = some r) :
    boolOfCode (byteAt l 0).toNat = some r.enabled ∧ PixFormat.ofCode (byteAt l 1).toNat = some r.format ∧
    r = ⟨r.enabled, r.format, field l 2 2, field l 4 2, (byteAt l 6).toNat, (byteAt l 7).toNat, field l 8 2, 0⟩ := by
  cases he : boolOfCode (byteAt l 0).toNat with
  | none => simp [SourceRec.unpack, he] at h
  | some enabled =>
    cases hf : PixFormat.ofCode (byteAt l 1).toNat with
    | none => simp [SourceRec.unpack, he, hf] at h
    | some format =>
      simp only [SourceRec.unpack, he, hf, Option.bind_eq_bind, Option.bind_some, Option.pure_def, Option.some.injEq] at h
      subst h
      exact ⟨rfl, rfl, rfl⟩

theorem Trigger.unpack_none_iff (l : List Byte) : Trigger.unpack l = none ↔
    (1 < (byteAt l 1).toNat ∨ 3 < (byteAt l 2).toNat ∨ 5 < (byteAt l 3).toNat) := by
  have hinvert : boolOfCode (byteAt l 1).toNat = none ↔ 1 < (byteAt l 1).toNat := by
    rw [boolOfCode_eq, List.getElem?_eq_none_iff]
    rfl
  have hedge : EdgeMode.ofCode (byteAt l 2).toNat = none ↔ 3 < (byteAt l 2).toNat := by
    rw [EdgeMode.ofCode_eq, List.getElem?_eq_none_iff]
    rfl
  have haction : Action.ofCode (byteAt l 3).toNat = none ↔ 5 < (byteAt l 3).toNat := by
    rw [Action.ofCode_eq, List.getElem?_eq_none_iff]
    rfl
  rw [← hinvert, ← hedge, ← haction]
  cases hi : boolOfCode (byteAt l 1).toNat <;> cases he : EdgeMode.ofCode (byteAt l 2).toNat <;>
    cases ha : Action.ofCode (byteAt l 3).toNat <;> simp [Trigger.unpack, hi, he, ha]

theorem Trigger.unpack_eq_some {l : List Byte} {r : Trigger} (h : Trigger.unpack l = some r) :
    boolOfCode (byteAt l 1).toNat = some r.invert ∧ EdgeMode.ofCode (byteAt l 2).toNat = some r.edge ∧
    Action.ofCode (byteAt l 3).toNat = some r.action ∧
    r = ⟨(byteAt l 0).toNat, r.invert, r.edge, r.action, byteAt l 4, byteAt l 5⟩ := by
  cases hi : boolOfCode (byteAt l 1).toNat with
  | none => simp [Trigger.unpack, hi] at h
  | some invert =>
    cases he : EdgeMode.ofCode (byteAt l 2).toNat with
    | none => simp [Trigger.unpack, hi, he] at h
    | some edge =>
      cases ha : Action.ofCode (byteAt l 3).toNat with
      | none => simp [Trigger.unpack, hi, he, ha] at h
      | some action =>
        simp only [Trigger.unpack, hi, he, ha, Option.bind_eq_bind, Option.bind_some, Option.pure_def, Option.some.injEq] at h
        subst h
        exact ⟨rfl, rfl, rfl, rfl⟩

theorem Trigger.ok_iff (r : Trigger) : r.ok = true ↔
    (r.flagSelect ≤ 33 ∧ r.action ≠ .commit ∧ (r.action ≠ .recall → r.window.toNat ≤ 31) ∧
      (r.action = .source → r.param.toNat ≤ 31) ∧ (r.action = .recall → r.param.toNat ≤ 3 ∧ r.edge ≠ .level)) := by
  obtain ⟨flagSelect, invert, edge, action, window, param⟩ := r
  cases action <;> simp [Trigger.ok, actionOk, and_assoc]

theorem Setup.ok_iff (r : Setup) (cues : Nat) : r.ok cues = true ↔
    (r.geo.ox ≤ 32767 ∧ r.geo.ox + r.geo.pw ≤ 32768 ∧ r.geo.oy ≤ 16383 ∧ r.geo.oy + r.geo.ph ≤ 16384 ∧
      64 ≤ r.geo.pw ∧ r.geo.pw ≤ 4096 ∧ 64 ≤ r.geo.ph ∧ r.geo.ph ≤ 4079 ∧ r.geo.ph + 16 ≤ r.v ∧ r.v ≤ 4095 ∧ r.o < r.v ∧
      1 ≤ r.holdoverLimit ∧ r.holdoverLimit ≤ 1000 ∧ r.startTimeout ≤ 1000 ∧ r.backlight ≤ 255 ∧ 1 ≤ r.flash ∧
      r.flash ≤ 6 ∧ (r.cueCapacity = 8 ∨ r.cueCapacity = 16 ∨ r.cueCapacity = 32 ∨ r.cueCapacity = 64) ∧
      cues ≤ r.cueCapacity ∧ 1 ≤ r.lookAhead ∧ r.lookAhead ≤ 16384 ∧ 1 ≤ r.statusInterval ∧ r.statusInterval ≤ 255) := by
  simp only [Setup.ok, Bool.and_eq_true, decide_eq_true_eq]
  omega

/-- Settles O24: the fields by `unpack_eq_some` of each record, the legal records by their `ok`. -/
theorem recordChecks : Obligations.RecordChecks := by
  unfold Obligations.RecordChecks
  refine ⟨fun l i w => colourAt_eq, fun l => ⟨WinRec.unpack_none_iff l, ?_⟩, WinRec.ok_iff,
    fun l => ⟨SourceRec.unpack_none_iff l, fun r h => ?_⟩, fun r => ?_, fun l r hr => ?_, Setup.ok_iff,
    fun l => ⟨Trigger.unpack_none_iff l, fun r h => ?_⟩, Trigger.ok_iff⟩
  · intro r crop tour text h hcrop htour htext
    subst hcrop htour htext
    obtain ⟨hmode, hsource, hr⟩ := WinRec.unpack_eq_some h
    rw [DisplayMode.ofCode_eq] at hmode
    rw [hr]
    refine ⟨rfl, rfl, rfl, rfl, rfl, hmode, index?_eq_some hsource, rfl, rfl, rfl, rfl, rfl, rfl, rfl, rfl, rfl, rfl, rfl,
      congrArg (· % 4096 + 1) (Nat.div_one _),
      fun i => ?_, rfl, rfl, rfl, rfl, rfl, rfl, fun i => ?_⟩
    · rw [Table.get_ofFn, indexOf_val, unpackField]
      exact Nat.mod_mod _ _
    · rw [Table.get_ofFn, indexOf_val, unpackField]
      exact Nat.mod_mod _ _
  · obtain ⟨henabled, hformat, hr⟩ := SourceRec.unpack_eq_some h
    rw [PixFormat.ofCode_eq] at hformat
    rw [hr]
    exact ⟨eq_yesNo_of_boolOfCode henabled, hformat, rfl, rfl, rfl, rfl, rfl⟩
  · simp only [SourceRec.ok, Bool.and_eq_true, decide_eq_true_eq, and_assoc]
  · subst hr
    refine ⟨rfl, rfl, rfl, rfl, rfl, rfl, rfl, rfl, rfl, rfl, fun k => ?_, rfl⟩
    obtain ⟨hlow, hhigh⟩ := k.priority_bounds
    simp only [kindIn, Setup.unpack, BitVec.getLsbD_ofNat, show k.priority - 1 < 12 by omega, decide_true, Bool.true_and]
  · obtain ⟨hinvert, hedge, haction, hr⟩ := Trigger.unpack_eq_some h
    rw [EdgeMode.ofCode_eq] at hedge
    rw [Action.ofCode_eq] at haction
    rw [hr]
    exact ⟨rfl, eq_yesNo_of_boolOfCode hinvert, hedge, haction, rfl, rfl⟩

end Sys2Proof.Machine
end

section
/-! Cues and tours: expiry of a due cue (R131, R132), what offering a cue comes to (R128 to R130, R161), the place a cue takes,
and the tour step (R20, R21). -/

namespace Sys2Proof.Machine

/-! ### Expiry (R131, R132) -/

theorem expireOne_of_noneDue {k : CueWork} {n : BitVec 32} (h : ∀ c ∈ k.queue, atOrBefore n c.target = false) :
    k.expireOne n = k := by
  have hnone : (k.queue.find? fun c => atOrBefore n c.target) = none :=
    List.find?_eq_none.mpr fun c hc => by simp [h c hc]
  rw [CueWork.expireOne, hnone]

/-- R131, R132: the first due cue acts, and is removed or put back. -/
theorem expireOne_of_due {k : CueWork} {n : BitVec 32} {front back : List Cue} {c : Cue} (hq : k.queue = front ++ c :: back)
    (hfront : ∀ d ∈ front, atOrBefore n d.target = false) (hdue : atOrBefore n c.target = true) :
    (k.expireOne n).work = k.work.act c.action c.window c.param ∧
    (c.mode = .once → (k.expireOne n).queue = front ++ back) ∧
    (c.mode = .repeating →
      (k.expireOne n).queue = putBack n { c with target := nextTarget n c.target c.period } (front ++ back)) := by
  have hfind : (k.queue.find? fun c => atOrBefore n c.target) = some c :=
    List.find?_eq_some_iff_append.mpr ⟨hdue, front, back, hq, fun d hd => by simp [hfront d hd]⟩
  have herase : k.queue.eraseP (fun d => atOrBefore n d.target) = front ++ back := by
    rw [hq, List.eraseP_append_right _ (fun d hd => by simp [hfront d hd]),
      List.eraseP_cons_of_pos (p := fun d : Cue => atOrBefore n d.target) hdue]
  rw [CueWork.expireOne, hfind]
  exact ⟨rfl, fun hm => by simp [hm, herase], fun hm => by simp [hm, herase]⟩

theorem isLate_of_due {n : BitVec 32} {c : Cue} (hdue : atOrBefore n c.target = true) : isLate n c = decide (c.target ≠ n) := by
  rw [isLate, hdue, Bool.true_and]

theorem expireCue_of_noneDue {s : State} (h : ∀ c ∈ s.cues.queue, atOrBefore s.timer.wallN c.target = false) :
    s.expireCue = s := by
  have hnone : (s.cues.queue.find? fun c => atOrBefore s.timer.wallN c.target) = none :=
    List.find?_eq_none.mpr fun c hc => by simp [h c hc]
  rw [State.expireCue, hnone]

/-- R131: CUE_EXPIRY with a due cue: the scene and the queue after its expiry, CUE_LATE, and the hand-over. -/
theorem expireCue_of_due {s : State} {front back : List Cue} {c : Cue} (hq : s.cues.queue = front ++ c :: back)
    (hfront : ∀ d ∈ front, atOrBefore s.timer.wallN d.target = false) (hdue : atOrBefore s.timer.wallN c.target = true)
    {k : CueWork} (hk : k = CueWork.expireOne ⟨⟨s.scene, []⟩, s.cues.queue⟩ s.timer.wallN) :
    s.expireCue = State.handSwitches
      (if c.target = s.timer.wallN then { s with scene := k.work.scene, cues := { s.cues with queue := k.queue } }
        else latch .cueLate { s with scene := k.work.scene, cues := { s.cues with queue := k.queue } }) k.work.switched := by
  have hfind : (s.cues.queue.find? fun c => atOrBefore s.timer.wallN c.target) = some c :=
    List.find?_eq_some_iff_append.mpr ⟨hdue, front, back, hq, fun d hd => by simp [hfront d hd]⟩
  subst hk
  rw [State.expireCue, hfind]
  simp only [isLate_of_due hdue, decide_eq_true_eq, ite_not]

theorem handSwitches_memory (s : State) (l : List (Fin 32)) :
    (s.handSwitches l).store.mem = s.store.mem ∧ (s.handSwitches l).store.free = s.store.free := ⟨rfl, rfl⟩

theorem exec_cueExpiry (s : State) : exec .cueExpiry s = .next (s.whenRunning State.expireCue) := rfl

/-- Settles O45: the due cue by `expireOne_of_due`, its latch and hand-over by `expireCue_of_due`. -/
theorem cueExpiryActs : Obligations.CueExpiryActs := by
  unfold Obligations.CueExpiryActs
  refine ⟨fun s c rest hrun hq hdue => ?_, fun s h => ?_⟩
  · have hcut : s.cues.queue = [] ++ c :: rest := hq
    have hnone : ∀ d ∈ ([] : List Cue), atOrBefore s.timer.wallN d.target = false := fun d hd => absurd hd List.not_mem_nil
    obtain ⟨hwork, honce, hrepeat⟩ := expireOne_of_due (k := ⟨⟨s.scene, []⟩, s.cues.queue⟩) hcut hnone hdue
    obtain ⟨k, hk⟩ : ∃ k, k = CueWork.expireOne ⟨⟨s.scene, []⟩, s.cues.queue⟩ s.timer.wallN := ⟨_, rfl⟩
    rw [← hk] at hwork honce hrepeat
    have hexpired := expireCue_of_due hcut hnone hdue hk
    obtain ⟨htimer, hsrc, hcomp, hfree, -⟩ := expireCue_keeps s
    have hcues : s.expireCue.cues = { s.cues with queue := k.queue } ∧ s.expireCue.scene = k.work.scene := by
      rw [hexpired]
      split <;> simp
    have hstore : s.expireCue.store.mem = s.store.mem ∧ s.expireCue.store.free = s.store.free := by
      rw [hexpired, (handSwitches_memory _ _).1, (handSwitches_memory _ _).2]
      split <;> simp
    have hscene : s.expireCue.scene = (SceneWork.act ⟨s.scene, []⟩ c.action c.window c.param).scene := by
      rw [hcues.2, hwork]
    refine ⟨s.expireCue, by rw [exec_cueExpiry, whenRunning_running hrun], fun hm => ?_, fun hm => ?_, fun ha => ?_,
      fun ha => ?_, fun ha => ?_, fun ha => ?_, fun ht => ?_, fun ht => ?_, ?_, ?_, ?_, hstore.2, htimer, hsrc, hcomp, hfree⟩
    · rw [hcues.1]
      exact honce hm
    · rw [hcues.1]
      exact hrepeat hm ▸ putBack_perm _ _ _
    · rw [hscene, ha]
      rfl
    · rw [hscene, ha]
      rfl
    · rw [hscene, ha]
      rfl
    · rw [hscene, ha]
      rfl
    · rw [hexpired, if_pos ht]
      exact ⟨rfl, rfl⟩
    · rw [hexpired, if_neg ht]
      obtain ⟨hattention, hcmd, -⟩ := latched_latch .cueLate
        { s with scene := k.work.scene, cues := { s.cues with queue := k.queue } }
      exact ⟨hattention, hcmd, (OuterLatched.latch _ _).1⟩
    · rw [hcues.1]
    · rw [hcues.1]
    · exact fun a => by rw [hstore.1]
  · rw [exec_cueExpiry, whenRunning_idle fun hrun => expireCue_of_noneDue (h.resolve_left fun hn => hn hrun)]

/-! ### Offering a cue (R128 to R130, R161) -/

theorem offerResult_late_iff (s : State) (c : Cue) : s.offerResult c = .late ↔
    (distance s.timer.wallN c.target = 0 ∨ 2 ^ 31 ≤ distance s.timer.wallN c.target) := by
  simp only [State.offerResult]
  split
  next h => exact ⟨fun _ => h, fun _ => rfl⟩
  next h =>
    refine iff_of_false ?_ h
    repeat' split
    all_goals decide

theorem offerResult_of_inTime {s : State} {c : Cue} (hpos : 0 < distance s.timer.wallN c.target)
    (hlt : distance s.timer.wallN c.target < 2 ^ 31) : s.offerResult c =
      if s.timer.setup.lookAhead < distance s.timer.wallN c.target then .far
      else if s.timer.admissionLimit ≤ s.cues.queue.length then .full else .ok := if_neg (by omega)

theorem offerResult_ok_iff (s : State) (c : Cue) : s.offerResult c = .ok ↔
    (1 ≤ distance s.timer.wallN c.target ∧ distance s.timer.wallN c.target < 2 ^ 31 ∧
      distance s.timer.wallN c.target ≤ s.timer.setup.lookAhead ∧ s.cues.queue.length < s.timer.admissionLimit) := by
  refine ⟨offerResult_ok, fun ⟨hpos, hlt, hnear, hroom⟩ => ?_⟩
  rw [offerResult_of_inTime hpos hlt, if_neg (by omega), if_neg (by omega)]

/-- R128, R161: what a cue offered comes to, where a cue that is accepted answers with `count`. -/
theorem cueOffered_of_offerCue {s : State} {cue : Cue} {count : Nat} {answer : State × Answer}
    (hok : s.offerResult cue = .ok → answer = (s.addCue cue, ⟨.ok, count, 0, 0, []⟩))
    (hnot : s.offerResult cue ≠ .ok → answer = s.offerCue cue) : CueOffered s cue count answer := by
  intro d limit n hd hn hlimit
  have hlimit : limit = s.timer.admissionLimit := hlimit
  have hd : d = distance s.timer.wallN cue.target := hd
  subst hd hn hlimit
  refine ⟨fun h => ?_, fun hpos hlt hfar => ?_, fun hpos hlt hnear hfull => ?_, fun hpos hlt hnear hroom => ?_⟩
  · have hlate := (offerResult_late_iff s cue).mpr h
    rw [hnot (by rw [hlate]; decide), State.offerCue, hlate]
    rfl
  · have hresult : s.offerResult cue = .far := by rw [offerResult_of_inTime hpos hlt, if_pos hfar]
    rw [hnot (by rw [hresult]; decide), State.offerCue, hresult]
    rfl
  · have hresult : s.offerResult cue = .full := by
      rw [offerResult_of_inTime hpos hlt, if_neg (by omega), if_pos hfull]
    rw [hnot (by rw [hresult]; decide), State.offerCue, hresult]
    rfl
  · rw [hok ((offerResult_ok_iff s cue).mpr ⟨hpos, hlt, hnear, hroom⟩)]
    rfl

theorem offerCue_of_ok {s : State} {cue : Cue} (h : s.offerResult cue = .ok) : s.offerCue cue = (s.addCue cue, Answer.plain .ok) := by
  rw [State.offerCue, h]

theorem offerCue_result (s : State) (cue : Cue) : (s.offerCue cue).2.result = s.offerResult cue := by
  unfold State.offerCue
  split
  next h => exact h.symm
  next h => exact h.symm
  next h => exact h.symm
  next => rfl

/-! ### CUE_ADD -/

theorem Cue.unpack_eq_some {l : List Byte} {cue : Cue} (h : Cue.unpack l = some cue) :
    Action.ofCode (byteAt l 1).toNat = some cue.action ∧ CueMode.ofCode (byteAt l 4).toNat = some cue.mode ∧
    cue = ⟨byteAt l 0, cue.action, byteAt l 2, byteAt l 3, cue.mode, field l 6 2, BitVec.ofNat 32 (field l 8 4)⟩ := by
  cases ha : Action.ofCode (byteAt l 1).toNat with
  | none => simp [Cue.unpack, ha] at h
  | some action =>
    cases hm : CueMode.ofCode (byteAt l 4).toNat with
    | none => simp [Cue.unpack, ha, hm] at h
    | some mode =>
      simp only [Cue.unpack, ha, hm, Option.bind_eq_bind, Option.bind_some, Option.pure_def, Option.some.injEq] at h
      subst h
      exact ⟨rfl, rfl, rfl⟩

theorem Cue.unpack_none_iff (l : List Byte) : Cue.unpack l = none ↔ (5 < (byteAt l 1).toNat ∨ 1 < (byteAt l 4).toNat) := by
  have haction : Action.ofCode (byteAt l 1).toNat = none ↔ 5 < (byteAt l 1).toNat := by
    rw [Action.ofCode_eq, List.getElem?_eq_none_iff]
    rfl
  have hmode : CueMode.ofCode (byteAt l 4).toNat = none ↔ 1 < (byteAt l 4).toNat := by
    rw [CueMode.ofCode_eq, List.getElem?_eq_none_iff]
    rfl
  rw [← haction, ← hmode]
  cases ha : Action.ofCode (byteAt l 1).toNat <;> cases hm : CueMode.ofCode (byteAt l 4).toNat <;>
    simp [Cue.unpack, ha, hm]

theorem Action.code_of_ofCode {n : Nat} {a : Action} (h : Action.ofCode n = some a) : a.code = n := by
  match n, h with
  | 0, h | 1, h | 2, h | 3, h | 4, h | 5, h => cases h; rfl

theorem CueMode.code_of_ofCode {n : Nat} {m : CueMode} (h : CueMode.ofCode n = some m) : m.code = n := by
  match n, h with
  | 0, h | 1, h => cases h; rfl

theorem Cue.ok_eq_false_iff (cue : Cue) : cue.ok = false ↔
    (cue.action = .blank ∨ cue.action = .highlight ∨ (cue.action = .recall ∧ 3 < cue.param.toNat) ∨
      (cue.action = .source ∧ 31 < cue.param.toNat) ∨
      ((cue.action = .source ∨ cue.action = .raise) ∧ 31 < cue.window.toNat) ∨
      (cue.mode = .repeating ∧ cue.period = 0)) := by
  obtain ⟨tag, action, window, param, mode, period, target⟩ := cue
  cases action <;> simp [Cue.ok, actionOk]
  all_goals
    simp only [← Nat.not_le]
    tauto

/-- R128, step 2, for a cue within its checks. -/
theorem cueDenied_iff {s : State} {cls : OrigClass} {cue : Cue} (hok : cue.ok = true) : s.cueDenied cls cue = true ↔
    (cls = .operator ∧ (cue.action = .source ∨ cue.action = .raise) ∧
      ∃ n : Fin 32, cue.window.toNat = n.val ∧ (s.scene.shadow.get n).pinned = true) := by
  have hbad := mt (Cue.ok_eq_false_iff cue).mpr (by rw [hok]; decide)
  have hwindow : ∀ h : cue.window.toNat ≤ 31, (s.shadowPinned (indexOf 32 cue.window.toNat) = true ↔
      ∃ n : Fin 32, cue.window.toNat = n.val ∧ (s.scene.shadow.get n).pinned = true) := fun h => by
    have hval : (indexOf 32 cue.window.toNat).val = cue.window.toNat := Nat.mod_eq_of_lt (by omega)
    refine ⟨fun hp => ⟨_, hval.symm, hp⟩, fun ⟨n, hn, hp⟩ => ?_⟩
    rwa [State.shadowPinned, show indexOf 32 cue.window.toNat = n from Fin.ext (hval.trans hn)]
  rw [State.cueDenied, Bool.and_eq_true, decide_eq_true_eq]
  refine and_congr_right fun _ => ?_
  cases ha : cue.action <;> simp [ha] at hbad <;> simp [actionWindow, *]

theorem judge_cueAdd {s : State} {c : Control} (hcommand : c.command = 9) :
    s.judge c = s.cueAdd (s.classOf c.originator) c := by
  rw [judge_isOpen (k := .cueAdd) (by rw [hcommand]; rfl) rfl]
  rfl

theorem cueAdd_of_bad {s : State} {cls : OrigClass} {c : Control} {cue : Cue} (hcue : Cue.unpack (c.payload.take 12) = some cue)
    (hbad : cue.ok = false) : s.cueAdd cls c = (s, Answer.plain .range) := by
  rw [State.cueAdd, hcue]
  exact if_pos hbad

theorem cueAdd_of_denied {s : State} {cls : OrigClass} {c : Control} {cue : Cue}
    (hcue : Cue.unpack (c.payload.take 12) = some cue) (hok : cue.ok = true) (hdenied : s.cueDenied cls cue = true) :
    s.cueAdd cls c = (s, Answer.plain .denied) := by
  rw [State.cueAdd, hcue]
  exact (if_neg (by rw [hok]; decide)).trans (if_pos hdenied)

theorem cueAdd_offered {s : State} {cls : OrigClass} {c : Control} {cue : Cue}
    (hcue : Cue.unpack (c.payload.take 12) = some cue) (hok : cue.ok = true) (hallowed : s.cueDenied cls cue = false) :
    CueOffered s cue (s.cues.queue.length + 1) (s.cueAdd cls c) := by
  have hadd : s.cueAdd cls c = ((s.offerCue cue).1, if (s.offerCue cue).2.result = .ok
      then Answer.counted .ok (s.offerCue cue).1.cues.queue.length else (s.offerCue cue).2) := by
    rw [State.cueAdd, hcue]
    exact (if_neg (by rw [hok]; decide)).trans (if_neg (by rw [hallowed]; decide))
  rw [hadd]
  refine cueOffered_of_offerCue (fun hresult => ?_) fun hresult => ?_
  · have hlen : (s.addCue cue).cues.queue.length = s.cues.queue.length + 1 := (insertCue_perm _ _ _).length_eq
    rw [offerCue_of_ok hresult]
    exact congrArg (Prod.mk (s.addCue cue)) ((if_pos rfl).trans (congrArg (Answer.counted .ok) hlen))
  · rw [if_neg (by rwa [offerCue_result])]

/-- R128: the place a cue takes in a queue in order. -/
theorem insertCue_spec {n : BitVec 32} {c : Cue} {q : List Cue}
    (h : q.Pairwise fun a b => distance n a.target ≤ distance n b.target) :
    ∃ front back, insertCue n c q = front ++ c :: back ∧ q = front ++ back ∧
      (∀ d ∈ front, distance n d.target ≤ distance n c.target) ∧
      ∀ d ∈ back, distance n c.target < distance n d.target := by
  refine ⟨_, _, rfl, List.takeWhile_append_dropWhile.symm, fun d hd => by simpa using List.mem_takeWhile_imp hd, ?_⟩
  generalize hp : (fun d : Cue => decide (distance n d.target ≤ distance n c.target)) = p
  have hsorted := h.sublist (List.dropWhile_sublist p)
  cases hback : q.dropWhile p with
  | nil => simp
  | cons e back =>
    have hhead : distance n c.target < distance n e.target := by
      have hnot : p e = false := by
        have h := List.head_dropWhile_not p (l := q) (by simp [hback])
        simpa [hback] using h
      rw [← hp] at hnot
      simpa using hnot
    rw [hback, List.pairwise_cons] at hsorted
    intro d hd
    rcases List.mem_cons.mp hd with rfl | hd
    · exact hhead
    · exact hhead.trans_le (hsorted.1 d hd)

theorem insertCue_pairwise {n : BitVec 32} {c : Cue} {q : List Cue}
    (h : q.Pairwise fun a b => distance n a.target ≤ distance n b.target) :
    (insertCue n c q).Pairwise fun a b => distance n a.target ≤ distance n b.target := by
  obtain ⟨front, back, heq, hq, hfront, hback⟩ := insertCue_spec (c := c) h
  rw [hq, List.pairwise_append] at h
  obtain ⟨hf, hb, hcross⟩ := h
  rw [heq, List.pairwise_append, List.pairwise_cons]
  refine ⟨hf, ⟨fun d hd => (hback d hd).le, hb⟩, fun a ha b hb => ?_⟩
  rcases List.mem_cons.mp hb with rfl | hb
  · exact hfront a ha
  · exact hcross a ha b hb

/-- Settles O46: the result of an offer, the place in the queue, the next target, and the two commands that offer a cue. -/
theorem cuesInOrder : Obligations.CuesInOrder := by
  unfold Obligations.CuesInOrder
  refine ⟨fun s c => ⟨offerResult_late_iff s c, offerResult_ok_iff s c⟩,
    fun n c q h => ⟨insertCue_pairwise h, insertCue_perm n c q, insertCue_spec h⟩, fun n target q hpos hle hdue => ?_,
    fun s c bytes hcommand hbytes => ?_, fun s c hcommand => ?_⟩
  · obtain ⟨-, -, -, hlow, hhigh, -⟩ := nextTarget_spec hdue hpos hle
    have hdiv := Nat.div_add_mod (n - target).toNat q
    have hmod := Nat.mod_lt (n - target).toNat hpos
    refine ⟨hlow, hhigh, (n - target).toNat / q + 1, ?_, ?_, rfl⟩ <;> rw [Nat.mul_succ] <;> omega
  · subst hbytes
    rw [judge_cueAdd hcommand]
    refine ⟨fun h => ?_, fun haction hmode => ?_⟩
    · rw [State.cueAdd, (Cue.unpack_none_iff _).mpr h]
      rfl
    · obtain ⟨cue, hcue⟩ := Option.ne_none_iff_exists'.mp (mt (Cue.unpack_none_iff (c.payload.take 12)).mp (by omega))
      obtain ⟨ha, hm, heq⟩ := Cue.unpack_eq_some hcue
      refine ⟨cue, heq, Action.code_of_ofCode ha, CueMode.code_of_ofCode hm, fun bad denied hbad hdenied => ?_⟩
      rw [← Cue.ok_eq_false_iff] at hbad
      refine ⟨fun h => cueAdd_of_bad hcue (hbad.mp h), fun h hd => ?_, fun h hd => ?_⟩
      · have hok : cue.ok = true := by simpa using mt hbad.mpr h
        exact cueAdd_of_denied hcue hok ((cueDenied_iff hok).mpr (hdenied.mp hd))
      · have hok : cue.ok = true := by simpa using mt hbad.mpr h
        exact cueAdd_offered hcue hok (by simpa using mt (fun hc => hdenied.mpr ((cueDenied_iff hok).mp hc)) hd)
  · rw [judge_isOpen (k := .commit) (by rw [hcommand]; rfl) rfl]
    refine ⟨fun h => ?_, fun h => ⟨commitCue (BitVec.ofNat 32 (65536 * c.arg1 + c.arg2)), rfl, ?_⟩⟩
    · obtain ⟨k, hk⟩ : ∃ k, c.index = k + 2 := ⟨c.index - 2, by omega⟩
      simp only [State.work, State.commitCommand, hk]
      rfl
    · simp only [State.work, State.commitCommand, h]
      exact cueOffered_of_offerCue offerCue_of_ok fun _ => rfl

/-! ### Tours (R20, R21) -/

theorem exec_tourStep (s : State) (k : Fin 32) : exec (.tourStep k) s = .next (s.whenRunning fun t => t.stepTour k) := rfl

theorem stepTour_of_still {s : State} {k : Fin 32} (h : (s.scene.active.get k).tours = false) : s.stepTour k = s :=
  if_neg (by rw [h]; decide)

theorem stepTour_of_tours {s : State} {k : Fin 32} (h : (s.scene.active.get k).tours = true) : s.stepTour k =
    State.handSwitches { s with scene := s.scene.tourStep k s.timer.wallN }
      (if s.scene.tourMoves k s.timer.wallN then [k] else []) := if_pos h

theorem WinState.toured_eq {r : WinRec} (h : r.tours = true) (w : WinState) (n : BitVec 32) {d step : Nat}
    (hd : d = (n - w.epoch).toNat) (hstep : step = if d < 2 ^ 31 then d / (r.dwell + 1) % r.tourLen else 0) :
    w.toured r n = { w with
      epoch := if d < 2 ^ 31 then w.epoch else n
      tourSource := some (r.tourList.get (Fin.ofNat 8 step)) } := by
  subst hd hstep
  exact if_pos h

theorem WinRec.tours_iff (r : WinRec) : r.tours = true ↔ (r.enabled = true ∧ 1 ≤ r.tourLen) := by simp [WinRec.tours]

/-- Settles O47: the window's state by `WinState.toured_eq`, the frame by the hand-over's. -/
theorem tourStepShows : Obligations.TourStepShows := by
  unfold Obligations.TourStepShows
  refine ⟨fun s k hrun henabled hlen _ => ?_, fun s k h => ?_⟩
  · have htours := (WinRec.tours_iff _).mpr ⟨henabled, hlen⟩
    obtain ⟨d, hd⟩ : ∃ d, d = (s.timer.wallN - (s.scene.wins.get k).epoch).toNat := ⟨_, rfl⟩
    obtain ⟨step, hstep⟩ : ∃ step, step = if d < 2 ^ 31 then d / ((s.scene.active.get k).dwell + 1) %
      (s.scene.active.get k).tourLen else 0 := ⟨_, rfl⟩
    refine ⟨s.stepTour k, d, step, by rw [exec_tourStep, whenRunning_running hrun], hd, hstep, ?_⟩
    rw [stepTour_of_tours htours]
    refine ⟨?_, fun m hm => Table.get_set_of_ne _ _ hm, rfl, fun a => rfl, rfl, rfl, rfl, rfl, rfl, rfl, rfl⟩
    exact (Table.get_set_self _ _ _).trans (WinState.toured_eq htours _ _ hd hstep)
  · rw [exec_tourStep]
    refine congrArg Host.Outcome.next (whenRunning_idle fun hrun => stepTour_of_still ?_)
    rw [Bool.eq_false_iff, ne_eq, WinRec.tours_iff]
    rintro ⟨henabled, hlen⟩
    rcases h with h | h | h
    · exact h hrun
    · exact absurd henabled (by rw [h]; decide)
    · exact absurd hlen (by rw [h]; decide)

end Sys2Proof.Machine
end

section
/-! The start of a line (R97, R113) and what a strip feeds by the backward map (R37, R66, R67). -/

namespace Sys2Proof.Machine

/-! ### Line starts (R97, R113) -/

theorem Timer.lineFollows_iff (t : Timer) : t.lineFollows = true ↔ t.lineZeroDue = true ∨ t.lineCount + 1 < t.frameLen := by
  simp [Timer.lineFollows]

theorem marksNext_iff (s : State) : s.marksNext = true ↔
    s.ring.phase = .running ∧ s.timer.lineZeroDue = false ∧ s.timer.frameLen ≤ s.timer.lineCount + 1 := by
  simp [State.marksNext, Timer.lineFollows]

theorem marksNext_eq_false {s : State}
    (h : s.ring.phase ≠ .running ∨ s.timer.lineZeroDue = true ∨ s.timer.lineCount + 1 < s.timer.frameLen) :
    s.marksNext = false := by
  rw [Bool.eq_false_iff, ne_eq, marksNext_iff]
  rintro ⟨hrun, hzero, hend⟩
  rcases h with h | h | h
  · exact h hrun
  · simp [hzero] at h
  · omega

/-- R97, R113: a line start that is no frame mark. -/
theorem exec_lineStart_of_unmarked {s : State} (h : s.marksNext = false) : exec .lineStart s = .next s.panelLine := by
  rcases exec_lineStart_cases s with ⟨hm, -⟩ | ⟨-, he⟩
  · exact absurd (h.symm.trans hm) (by decide)
  · exact he

theorem exec_lineStart_of_marks {s : State} (h : s.marksNext = true) : exec .lineStart s = .next s.lineMark := by
  rcases exec_lineStart_cases s with ⟨-, he⟩ | ⟨hm, -⟩
  · exact he
  · exact absurd (h.symm.trans hm) (by decide)

theorem panelLine_of_powerOn {s : State} (h : s.ring.phase = .powerOnReset) : s.panelLine = s := if_pos h

theorem panelLine_of_ne {s : State} (h : s.ring.phase ≠ .powerOnReset) : s.panelLine = s.lineStart := if_neg h

/-- R113: a line start of the frame in progress. -/
theorem lineStart_of_follows {s : State} (h : s.timer.lineFollows = true) : s.lineStart =
    State.buildLine { s with timer := { s.timer with lineCount := s.timer.nextLine, lineZeroDue := false } }
      s.timer.nextLine := if_pos h

theorem lineStart_of_end {s : State} (h : s.timer.lineFollows = false) : s.lineStart = s :=
  if_neg (by rw [h]; decide)

theorem buildLine_of_blanking {s : State} {v : Nat} (h : s.timer.setup.geo.ph ≤ v) : s.buildLine v = s :=
  if_neg (Nat.not_lt.mpr h)

theorem buildLine_of_active {s : State} {v : Nat} (h : v < s.timer.setup.geo.ph) : s.buildLine v =
    { s with comp := { s.comp with panelLine := v, panelPixels := s.linePixels v } } := if_pos h

theorem buildLine_comp_kept (s : State) (v : Nat) : (s.buildLine v).comp.glyphs = s.comp.glyphs ∧
    (s.buildLine v).comp.output = s.comp.output ∧ (s.buildLine v).comp.backlight = s.comp.backlight := by
  unfold State.buildLine
  split <;> exact ⟨rfl, rfl, rfl⟩

theorem linePixels_length (s : State) (v : Nat) : (s.linePixels v).length = s.timer.setup.geo.pw := by
  simp [State.linePixels]

theorem linePixels_of_black {s : State} (h : s.comp.output = .black) (v : Nat) :
    ∀ p ∈ s.linePixels v, p = ⟨0, 0, 0⟩ := by
  simp only [State.linePixels, h, List.mem_map]
  rintro p ⟨u, -, rfl⟩
  rfl

theorem linePixels_of_show {s : State} (h : s.comp.output = .show) (v : Nat) {u : Nat} (hu : u < s.timer.setup.geo.pw) :
    (s.linePixels v)[u]? = some (s.wallColour (s.timer.setup.geo.ox + u) (s.timer.setup.geo.oy + v)) := by
  simp [State.linePixels, h, hu]

/-- R97, R110: the colours of a line do not depend on which line is in progress. -/
theorem wallColour_of_line (s : State) (v : Nat) (x y : Nat) :
    State.wallColour { s with timer := { s.timer with lineCount := v, lineZeroDue := false } } x y = s.wallColour x y := rfl

theorem Timer.marked_lineZeroDue (t : Timer) : t.marked.lineZeroDue = true := rfl

/-- Settles O48: the line of the frame in progress by `lineStart_of_follows`, the frame's end by the mark. -/
theorem lineStartBuilds : Obligations.LineStartBuilds := by
  unfold Obligations.LineStartBuilds
  refine ⟨fun s hphase hline => ?_, fun s h => ?_, fun s hrun hzero hend => ?_, fun s o h => ?_⟩
  · have hunmarked := marksNext_eq_false (.inr hline)
    obtain ⟨v, hv⟩ : ∃ v, v = s.timer.nextLine := ⟨_, rfl⟩
    obtain ⟨q, hq⟩ : ∃ q : State, q = { s with timer := { s.timer with lineCount := v, lineZeroDue := false } } := ⟨_, rfl⟩
    have hexec : exec .lineStart s = .next (q.buildLine v) := by
      rw [exec_lineStart_of_unmarked hunmarked, panelLine_of_ne hphase,
        lineStart_of_follows ((Timer.lineFollows_iff _).mpr hline), hq, hv]
    obtain ⟨hring, hcmd, htimer, hscene, hsrc, hstore, hcues, hfree, -⟩ := buildLine_keeps v q
    obtain ⟨hglyphs, houtput, hbacklight⟩ := buildLine_comp_kept q v
    have hblank : q.timer.setup.geo.ph ≤ v → (q.buildLine v).comp = q.comp := fun h => congrArg State.comp (buildLine_of_blanking h)
    have hactive : v < q.timer.setup.geo.ph → q.buildLine v =
        { q with comp := { q.comp with panelLine := v, panelPixels := q.linePixels v } } := buildLine_of_active
    subst hq
    refine ⟨_, v, hexec, hv, htimer, hblank, fun h => ?_, hglyphs, houtput, hbacklight, hring, hcmd, hscene, hsrc,
      ⟨hstore, fun a => by rw [hstore]⟩, hcues, hfree⟩
    · rw [hactive h]
      exact ⟨rfl, linePixels_length _ v, fun hblack => linePixels_of_black hblack v, fun hshow u hu =>
        (linePixels_of_show hshow v hu).trans (congrArg some (wallColour_of_line s v _ _))⟩
  · have hunmarked : s.marksNext = false := marksNext_eq_false (h.elim (fun h => .inl (by rw [h]; decide)) (fun h => .inl h.1))
    rw [exec_lineStart_of_unmarked hunmarked]
    refine congrArg Host.Outcome.next ?_
    by_cases hpower : s.ring.phase = .powerOnReset
    · exact panelLine_of_powerOn hpower
    · obtain ⟨-, hzero, hend⟩ := h.resolve_left hpower
      rw [panelLine_of_ne hpower, lineStart_of_end]
      rw [Bool.eq_false_iff, ne_eq, Timer.lineFollows_iff, hzero]
      rintro (h | h)
      · exact absurd h (by decide)
      · omega
  · have hmarks := (marksNext_iff s).mpr ⟨hrun, hzero, hend⟩
    obtain ⟨q, hq⟩ : ∃ q : State, q = { s with freeIdx := s.freeIdx + 1 } := ⟨_, rfl⟩
    obtain ⟨u, hu⟩ : ∃ u, u = q.frameMark (Config.lineMarkOrder s.freeIdx) := ⟨_, rfl⟩
    have hphase : u.ring.phase = .running := by
      obtain ⟨hring, -, -⟩ := frameMark_outer q (Config.lineMarkOrder s.freeIdx)
      rw [hu, hring, hq]
      exact hrun
    have hdue : u.timer.lineZeroDue = true := by rw [hu, frameMark_timer, Timer.marked_lineZeroDue]
    refine ⟨u, ?_, hphase, hdue, ?_⟩
    · rw [← hq, hu]
      rcases exec_frameMark_cases (Config.lineMarkOrder s.freeIdx) q with ⟨-, he⟩ | ⟨hm, -⟩
      · exact he
      · rw [hq] at hm
        exact absurd (hm.symm.trans hmarks) (by decide)
    · rw [exec_lineStart_of_marks hmarks, exec_lineStart_of_unmarked (marksNext_eq_false (.inr (.inl hdue))),
        panelLine_of_ne (by rw [hphase]; decide), hu, hq]
      rfl
  · rcases exec_frameMark_cases o s with ⟨hm, -⟩ | ⟨-, he⟩
    · exact absurd (hm.symm.trans (marksNext_eq_false h)) (by decide)
    · exact he

/-! ### What a strip feeds (R37, R66, R67) -/

theorem firstOffset_zero {w e : Nat} (hw : 1 ≤ w) (he : 1 ≤ e) : firstOffset w e 0 = 0 :=
  Nat.le_zero.mp ((firstOffset_le_iff hw he 0 0).mpr (Nat.zero_le _))

theorem firstOffset_width {w e : Nat} (hw : 1 ≤ w) (he : 1 ≤ e) : firstOffset w e e = w := by
  refine le_antisymm (firstOffset_le_width hw he le_rfl) (Nat.le_of_not_lt fun hlt => ?_)
  have hlast : e ≤ mapOffset w e (w - 1) := (firstOffset_le_iff hw he e (w - 1)).mp (by omega)
  rw [le_mapOffset_iff hw] at hlast
  obtain ⟨n, rfl⟩ := Nat.exists_eq_add_of_le' hw
  rw [Nat.add_sub_cancel] at hlast
  nlinarith

/-- R66: the fed rows are the visible rows that take the strip's line. -/
theorem mem_fedRows {r : WinRec} {c : Crop} {v : VisRect} {line j : Nat} (hh : 1 ≤ r.h) (hc : 1 ≤ c.ch) :
    j ∈ fedRows r c v line ↔
      v.y0 - r.y ≤ j ∧ j < v.y0 - r.y + v.h ∧ line < c.cy + c.ch ∧ c.cy + mapOffset r.h c.ch j = line := by
  unfold fedRows
  split
  next hline =>
    rw [mem_fedOffsets hh hc]
    omega
  next hline =>
    refine iff_of_false List.not_mem_nil ?_
    omega

/-- R67: the fed columns are the visible columns that take a column of the strip, the source and the crop. -/
theorem mem_fedColumns {r : WinRec} {c : Crop} {v : VisRect} {sw per seg i : Nat} (hw : 1 ≤ r.w) (hc : 1 ≤ c.cw) :
    i ∈ fedColumns r c v sw per seg ↔
      v.x0 - r.x ≤ i ∧ i < v.x0 - r.x + v.w ∧ seg * per ≤ c.cx + mapOffset r.w c.cw i ∧
      c.cx + mapOffset r.w c.cw i < seg * per + per ∧ c.cx + mapOffset r.w c.cw i < sw ∧
      c.cx + mapOffset r.w c.cw i < c.cx + c.cw := by
  simp only [fedColumns]
  generalize seg * per = first
  split
  next hcols =>
    rw [mem_fedOffsets hw hc]
    omega
  next hcols =>
    refine iff_of_false List.not_mem_nil ?_
    omega

/-- R44, R68: the words a strip writes are those of its fed rows and columns. -/
theorem mem_stripWrites {r : WinRec} {src : SourceRec} {v : VisRect} {st : Strip} {w : Nat × Colour} :
    w ∈ stripWrites r src v st ↔ ∃ j ∈ fedRows r (effectiveCrop r src) v st.line,
      ∃ i ∈ fedColumns r (effectiveCrop r src) v src.sw src.format.perStrip st.segment,
        ((j - (v.y0 - r.y)) * v.w + (i - (v.x0 - r.x)), stripColour src.format st.pixels
          ((effectiveCrop r src).cx + mapOffset r.w (effectiveCrop r src).cw i - st.segment * src.format.perStrip)) = w := by
  simp only [stripWrites, List.mem_flatMap, List.mem_map]

theorem fedOffsets_bound {size ext ta tb start len i : Nat} (h : i ∈ fedOffsets size ext ta tb start len) :
    i - start < len := by
  rw [fedOffsets, mem_span] at h
  omega

theorem fedRows_bound {r : WinRec} {c : Crop} {v : VisRect} {line j : Nat} (h : j ∈ fedRows r c v line) :
    j - (v.y0 - r.y) < v.h := by
  unfold fedRows at h
  split at h
  · exact fedOffsets_bound h
  · exact absurd h List.not_mem_nil

theorem fedColumns_bound {r : WinRec} {c : Crop} {v : VisRect} {sw per seg i : Nat} (h : i ∈ fedColumns r c v sw per seg) :
    i - (v.x0 - r.x) < v.w := by
  simp only [fedColumns] at h
  split at h
  · exact fedOffsets_bound h
  · exact absurd h List.not_mem_nil

theorem stripWrites_lt {r : WinRec} {src : SourceRec} {v : VisRect} {st : Strip} {w : Nat × Colour}
    (h : w ∈ stripWrites r src v st) : w.1 < v.w * v.h := by
  obtain ⟨j, hj, i, hi, rfl⟩ := mem_stripWrites.mp h
  have hrow := fedRows_bound hj
  have hcol := fedColumns_bound hi
  calc (j - (v.y0 - r.y)) * v.w + (i - (v.x0 - r.x))
      < (j - (v.y0 - r.y)) * v.w + v.w := Nat.add_lt_add_left hcol _
    _ = (j - (v.y0 - r.y) + 1) * v.w := (Nat.succ_mul _ _).symm
    _ ≤ v.h * v.w := Nat.mul_le_mul_right _ hrow
    _ = v.w * v.h := Nat.mul_comm _ _

/-- Settles O54: the rows and columns fed by `mem_fedRows` and `mem_fedColumns`. -/
theorem intakeTakesWhatTheMapGives : Obligations.IntakeTakesWhatTheMapGives := by
  unfold Obligations.IntakeTakesWhatTheMapGives
  refine ⟨fun w e t i hw he => (firstOffset_le_iff hw he t i).symm, fun w e hw he => ⟨firstOffset_zero hw he, firstOffset_width hw he⟩,
    fun r c v line j hh hc => mem_fedRows hh hc, fun r c v sw per seg i hw hc => mem_fedColumns hw hc,
    fun r src v st w h => stripWrites_lt h⟩

end Sys2Proof.Machine
end

section
/-! Frame memory (R44, R68, R77, R91): what a written word and a filled page leave, what strip intake writes, and that
nothing but strips, frame marks and power-on reset writes it. -/

namespace Sys2Proof.Machine

/-! ### The bytes of a memory in its form (log 8) -/

theorem Memory.readByte_of_mem {m : Memory} {a : Nat} {v : Byte} (hm : m.Pairwise fun c d => c.1 < d.1)
    (h : (a, v) ∈ m) : m.readByte a = v := by
  induction m with
  | nil => exact absurd h List.not_mem_nil
  | cons c rest ih =>
    obtain ⟨k, w⟩ := c
    obtain ⟨hfirst, hrest⟩ := List.pairwise_cons.mp hm
    rcases List.mem_cons.mp h with heq | hmem
    · cases heq
      exact if_pos rfl
    · have hlt : k < a := hfirst _ hmem
      exact (if_neg (Nat.ne_of_lt hlt)).trans (ih hrest hmem)

theorem Memory.readByte_of_unlisted {m : Memory} {a : Nat} (h : ∀ v, (a, v) ∉ m) : m.readByte a = Config.blankByte := by
  induction m with
  | nil => rfl
  | cons c rest ih =>
    obtain ⟨k, w⟩ := c
    refine (if_neg fun heq => ?_).trans (ih fun v hv => h v (List.mem_cons_of_mem _ hv))
    exact h w (heq ▸ List.mem_cons_self)

/-- Where two memories in their form list the same at an address, they read the same there. -/
theorem Memory.readByte_congr {m k : Memory} (hm : m.wf) (hk : k.wf) {a : Nat} (h : ∀ v, (a, v) ∈ k ↔ (a, v) ∈ m) :
    k.readByte a = m.readByte a := by
  by_cases hlisted : ∃ v, (a, v) ∈ m
  · obtain ⟨v, hv⟩ := hlisted
    rw [readByte_of_mem hm.1 hv, readByte_of_mem hk.1 ((h v).mpr hv)]
  · rw [not_exists] at hlisted
    rw [readByte_of_unlisted hlisted, readByte_of_unlisted fun v hv => hlisted v ((h v).mp hv)]

/-! ### Filled pages (R91) -/

theorem mem_pageBlock_iff (p : Page) (w : BitVec 32) (c : Host.Cell) : c ∈ pageBlock p w ↔
    c.2 ≠ Config.blankByte ∧ ∃ k, k < 16384 ∧ ∃ j, j < 4 ∧ c = (wordAddress p k + j, (wordBytes w).getD j 0) := by
  unfold pageBlock
  split
  next hzero =>
    refine iff_of_false List.not_mem_nil ?_
    rintro ⟨hne, k, -, j, hj, rfl⟩
    subst hzero
    interval_cases j <;> exact hne rfl
  next =>
    simp only [List.mem_filter, List.mem_flatMap, List.mem_map, List.mem_range, bne_iff_ne, Config.pagePixels]
    constructor
    · rintro ⟨⟨k, hk, j, hj, rfl⟩, hne⟩
      exact ⟨hne, k, hk, j, hj, rfl⟩
    · rintro ⟨hne, k, hk, j, hj, rfl⟩
      exact ⟨⟨k, hk, j, hj, rfl⟩, hne⟩

/-- A byte of a page stands in one word, at one place of it. -/
theorem wordAddress_inj {p : Page} {k k' j j' : Nat} (hk : k < 16384) (hk' : k' < 16384) (hj : j < 4) (hj' : j' < 4)
    (h : wordAddress p k + j = wordAddress p k' + j') : k = k' ∧ j = j' := by
  simp only [wordAddress, Config.pagePixels, Nat.mod_eq_of_lt hk, Nat.mod_eq_of_lt hk'] at h
  omega

theorem wordAddress_page (p : Page) (k : Nat) {j : Nat} (hj : j < 4) : (wordAddress p k + j) / 65536 = p.val := by
  have h := wordAddress_bounds p k
  simp only [Config.pageBytes] at h
  omega

theorem mem_fillPage (m : Memory) (p : Page) (w : BitVec 32) (a : Nat) (v : Byte) : (a, v) ∈ m.fillPage p w ↔
    ((a, v) ∈ m ∧ a < p.val * 65536) ∨ (a, v) ∈ pageBlock p w ∨ ((a, v) ∈ m ∧ p.val * 65536 + 65536 ≤ a) := by
  rw [Memory.fillPage, List.mem_append, List.mem_append, List.mem_filter, List.mem_filter]
  exact or_congr (and_congr_right fun _ => decide_eq_true_iff)
    (or_congr_right (and_congr_right fun _ => decide_eq_true_iff))

theorem mem_fillPage_inside (m : Memory) (p : Page) (w : BitVec 32) {a : Nat} (h : a / 65536 = p.val) (v : Byte) :
    (a, v) ∈ m.fillPage p w ↔ (a, v) ∈ pageBlock p w := by
  rw [mem_fillPage, or_iff_right fun hlow => by omega, or_iff_left fun hhigh => by omega]

theorem mem_fillPage_outside (m : Memory) (p : Page) (w : BitVec 32) {a : Nat} (h : a / 65536 ≠ p.val) (v : Byte) :
    (a, v) ∈ m.fillPage p w ↔ (a, v) ∈ m := by
  have hblock : (a, v) ∉ pageBlock p w := fun hmem => by
    obtain ⟨-, hlow, hhigh⟩ := mem_pageBlock p w _ hmem
    simp only [Config.pageBytes] at hlow hhigh
    omega
  rw [mem_fillPage, or_iff_right hblock, ← and_or_left]
  exact and_iff_left (by omega)

theorem readByte_fillPage_outside {m : Memory} (hm : m.wf) {p : Page} (w : BitVec 32) {a : Nat} (h : a / 65536 ≠ p.val) :
    (m.fillPage p w).readByte a = m.readByte a :=
  Memory.readByte_congr hm (Memory.wf_fillPage m p w hm) (mem_fillPage_outside m p w h)

theorem readByte_fillPage_word {m : Memory} (hm : m.wf) (p : Page) (w : BitVec 32) {k j : Nat} (hk : k < 16384)
    (hj : j < 4) : (m.fillPage p w).readByte (wordAddress p k + j) = (wordBytes w).getD j 0 := by
  have hfilled := (Memory.wf_fillPage m p w hm).1
  have hlisted := mem_fillPage_inside m p w (wordAddress_page p k hj)
  by_cases hblank : (wordBytes w).getD j 0 = Config.blankByte
  · rw [hblank]
    refine Memory.readByte_of_unlisted fun v hv => ?_
    obtain ⟨hne, k', hk', j', hj', heq⟩ := (mem_pageBlock_iff p w _).mp ((hlisted v).mp hv)
    obtain ⟨haddress, rfl⟩ := Prod.mk.inj heq
    obtain ⟨-, rfl⟩ := wordAddress_inj hk hk' hj hj' haddress
    exact hne hblank
  · exact Memory.readByte_of_mem hfilled
      ((hlisted _).mpr ((mem_pageBlock_iff p w _).mpr ⟨hblank, k, hk, j, hj, rfl⟩))

theorem Memory.readWord_congr {m k : Memory} {a : Nat} (h : ∀ j, j < 4 → k.readByte (a + j) = m.readByte (a + j)) :
    k.readWord a = m.readWord a := by
  have hfirst : k.readByte a = m.readByte a := h 0 (by decide)
  rw [readWord, readWord, hfirst, h 1 (by decide), h 2 (by decide), h 3 (by decide)]

theorem Memory.readWord_of_bytes {m : Memory} {a : Nat} {w : BitVec 32}
    (h : ∀ j, j < 4 → m.readByte (a + j) = (wordBytes w).getD j 0) : m.readWord a = w := by
  have hfirst : m.readByte a = (wordBytes w).getD 0 0 := h 0 (by decide)
  rw [readWord, hfirst, h 1 (by decide), h 2 (by decide), h 3 (by decide)]
  exact wordBytes_append w

theorem readWord_fillPage {m : Memory} (hm : m.wf) (p : Page) (w : BitVec 32) {k : Nat} (hk : k < 16384) :
    (m.fillPage p w).readWord (wordAddress p k) = w :=
  Memory.readWord_of_bytes fun _ hj => readByte_fillPage_word hm p w hk hj

theorem readByte_fillPages_outside {pages : List Page} {m : Memory} (hm : m.wf) (w : BitVec 32) {a : Nat}
    (h : ∀ p ∈ pages, a / 65536 ≠ p.val) : (m.fillPages pages w).readByte a = m.readByte a := by
  induction pages generalizing m with
  | nil => rfl
  | cons q pages ih =>
    obtain ⟨hq, hrest⟩ := List.forall_mem_cons.mp h
    exact (ih (Memory.wf_fillPage m q w hm) hrest).trans (readByte_fillPage_outside hm w hq)

/-- R91: pages given hold their colour in every word: a page given twice holds it too. -/
theorem readWord_fillPages {pages : List Page} {m : Memory} (hm : m.wf) (w : BitVec 32) {p : Page} {k : Nat}
    (hk : k < 16384) (h : p ∈ pages ∨ m.readWord (wordAddress p k) = w) :
    (m.fillPages pages w).readWord (wordAddress p k) = w := by
  induction pages generalizing m with
  | nil => exact h.resolve_left List.not_mem_nil
  | cons q pages ih =>
    refine ih (Memory.wf_fillPage m q w hm) ?_
    by_cases hpq : p = q
    · subst hpq
      exact .inr (readWord_fillPage hm p w hk)
    · rcases h with h | h
      · exact .inl (List.mem_of_ne_of_mem hpq h)
      · refine .inr ((Memory.readWord_congr fun j hj => readByte_fillPage_outside hm w ?_).trans h)
        rw [wordAddress_page p k hj]
        exact fun he => hpq (Fin.ext he)

/-! ### Store pixels (R44) -/

theorem wordAddress?_of_lt {pages : List Page} {k : Nat} (h : k < 16384 * pages.length) :
    ∃ hk : k / 16384 < pages.length, wordAddress? pages k = some (wordAddress pages[k / 16384] (k % 16384)) := by
  have hk : k / 16384 < pages.length := by omega
  refine ⟨hk, ?_⟩
  rw [wordAddress?, Config.pagePixels, List.getElem?_eq_getElem hk]
  rfl

theorem wordAddress?_page {pages : List Page} {k a : Nat} (h : wordAddress? pages k = some a) :
    ∃ p ∈ pages, ∃ j, a = wordAddress p j := by
  unfold wordAddress? at h
  obtain ⟨p, hp, rfl⟩ := Option.map_eq_some_iff.mp h
  exact ⟨p, List.mem_of_getElem? hp, _, rfl⟩

/-- Words of different pages lie apart. -/
theorem wordAddress_disjoint_of_ne {p q : Page} (h : p ≠ q) (k j : Nat) :
    wordAddress q j + 4 ≤ wordAddress p k ∨ wordAddress p k + 4 ≤ wordAddress q j := by
  have hp := wordAddress_bounds p k
  have hq := wordAddress_bounds q j
  have hne : p.val ≠ q.val := fun he => h (Fin.ext he)
  simp only [Config.pageBytes] at hp hq
  omega

/-- Different words of a buffer lie apart. -/
theorem wordAddress?_disjoint {pages : List Page} (hpages : pages.Nodup) {k j a b : Nat} (hne : j ≠ k)
    (hk : wordAddress? pages k = some a) (hj : wordAddress? pages j = some b) : b + 4 ≤ a ∨ a + 4 ≤ b := by
  simp only [wordAddress?, Config.pagePixels, Option.map_eq_some_iff] at hk hj
  obtain ⟨p, hp, rfl⟩ := hk
  obtain ⟨q, hq, rfl⟩ := hj
  by_cases hpq : p = q
  · subst hpq
    have hsame : k / 16384 = j / 16384 := by
      obtain ⟨hk', hpk⟩ := List.getElem?_eq_some_iff.mp hp
      obtain ⟨hj', hpj⟩ := List.getElem?_eq_some_iff.mp hq
      exact (List.Nodup.getElem_inj_iff hpages).mp (hpk.trans hpj.symm)
    simp only [wordAddress, Config.pagePixels]
    omega
  · exact wordAddress_disjoint_of_ne hpq _ _

theorem writeStore_of_address {m : Memory} {pages : List Page} {k a : Nat} (h : wordAddress? pages k = some a)
    (c : Colour) : m.writeStore pages k c = m.writeWord a c.word := by
  rw [Memory.writeStore, h]

theorem writeStore_of_none {m : Memory} {pages : List Page} {k : Nat} (h : wordAddress? pages k = none)
    (c : Colour) : m.writeStore pages k c = m := by
  rw [Memory.writeStore, h]

theorem readStore_of_address {m : Memory} {pages : List Page} {k a : Nat} (h : wordAddress? pages k = some a) :
    m.readStore pages k = some (Colour.ofWord (m.readWord a)) := by
  rw [Memory.readStore, h]
  rfl

theorem readStore_writeStore_self {m : Memory} (hm : m.wf) {pages : List Page} {k a : Nat}
    (h : wordAddress? pages k = some a) (c : Colour) : (m.writeStore pages k c).readStore pages k = some c := by
  rw [writeStore_of_address h, readStore_of_address h,
    Memory.readWord_writeWord_self m a _ hm (wordAddress?_bound pages k a h), Colour.ofWord_word]

/-- A store pixel written leaves the words that lie apart from it. -/
theorem readWord_writeStore_of_disjoint (m : Memory) {pages : List Page} {k b : Nat} (c : Colour)
    (h : ∀ a, wordAddress? pages k = some a → b + 4 ≤ a ∨ a + 4 ≤ b) :
    (m.writeStore pages k c).readWord b = m.readWord b := by
  cases hk : wordAddress? pages k with
  | none => rw [writeStore_of_none hk]
  | some a => rw [writeStore_of_address hk, Memory.readWord_writeWord_of_disjoint m a b _ (h a hk)]

theorem readByte_writeStore_of_outside (m : Memory) {pages : List Page} {k b : Nat} (c : Colour)
    (h : ∀ a, wordAddress? pages k = some a → ¬(a ≤ b ∧ b < a + 4)) :
    (m.writeStore pages k c).readByte b = m.readByte b := by
  cases hk : wordAddress? pages k with
  | none => rw [writeStore_of_none hk]
  | some a =>
    have hout := h a hk
    rw [writeStore_of_address hk, Memory.readByte_writeWord_of_not_mem m a b _ (by omega)]

/-- Settles O52: a written word by `readStore_writeStore_self`, filled pages by the membership of the form. -/
theorem storePixelsReadBack : Obligations.StorePixelsReadBack := by
  unfold Obligations.StorePixelsReadBack
  refine ⟨fun m pages k j c hm hpages _ hj => ?_, fun m pages w hm =>
    ⟨fun p hp k hk => readWord_fillPages hm w hk (.inl hp), fun a ha => readByte_fillPages_outside hm w ha⟩⟩
  obtain ⟨_, hja⟩ := wordAddress?_of_lt hj
  split
  next heq =>
    subst heq
    exact readStore_writeStore_self hm hja c
  next hne =>
    rw [readStore_of_address hja, readStore_of_address hja, readWord_writeStore_of_disjoint]
    intro a ha
    exact wordAddress?_disjoint hpages hne ha hja

end Sys2Proof.Machine
end

section
/-! Who writes frame memory (R62, R63, R68): a strip, the words its map gives; and no other command but a frame mark and
power-on reset. -/

namespace Sys2Proof.Machine

/-! ### Store pixels of one window (R68) -/

theorem readByte_writePixels_of_outside {pages : List Page} {l : List (Nat × Colour)} {m : Memory} {b : Nat}
    (h : ∀ w ∈ l, ∀ a, wordAddress? pages w.1 = some a → ¬(a ≤ b ∧ b < a + 4)) :
    (m.writePixels pages l).readByte b = m.readByte b := by
  induction l generalizing m with
  | nil => rfl
  | cons w l ih =>
    obtain ⟨hw, hrest⟩ := List.forall_mem_cons.mp h
    exact (ih hrest).trans (readByte_writeStore_of_outside m w.2 hw)

theorem readWord_writePixels_of_disjoint {pages : List Page} {l : List (Nat × Colour)} {m : Memory} {b : Nat}
    (h : ∀ w ∈ l, ∀ a, wordAddress? pages w.1 = some a → b + 4 ≤ a ∨ a + 4 ≤ b) :
    (m.writePixels pages l).readWord b = m.readWord b := by
  induction l generalizing m with
  | nil => rfl
  | cons w l ih =>
    obtain ⟨hw, hrest⟩ := List.forall_mem_cons.mp h
    exact (ih hrest).trans (readWord_writeStore_of_disjoint m w.2 hw)

/-- A pixel that every write to its word gives the same colour is read back. -/
theorem readStore_writePixels {pages : List Page} (hpages : pages.Nodup) {l : List (Nat × Colour)} {m : Memory}
    (hm : m.wf) {k a : Nat} {c : Colour} (hk : wordAddress? pages k = some a) (hsame : ∀ w ∈ l, w.1 = k → w.2 = c)
    (h : (∃ w ∈ l, w.1 = k) ∨ m.readStore pages k = some c) : (m.writePixels pages l).readStore pages k = some c := by
  induction l generalizing m with
  | nil => exact h.resolve_left (by simp)
  | cons w l ih =>
    obtain ⟨hw, hrest⟩ := List.forall_mem_cons.mp hsame
    refine ih (Memory.wf_writeStore m pages w.1 w.2 hm) hrest ?_
    by_cases hword : w.1 = k
    · refine .inr ?_
      have hself := readStore_writeStore_self hm hk c
      rw [← hword, ← hw hword] at hself ⊢
      exact hself
    · rcases h with ⟨u, hu, hut⟩ | h
      · rcases List.mem_cons.mp hu with rfl | hu
        · exact absurd hut hword
        · exact .inl ⟨u, hu, hut⟩
      · refine .inr ?_
        rw [readStore_of_address hk] at h ⊢
        refine Eq.trans (congrArg (fun u => some (Colour.ofWord u)) ?_) h
        exact readWord_writeStore_of_disjoint m w.2 fun a' ha' => wordAddress?_disjoint hpages (Ne.symm hword) ha' hk

theorem fedColumns_start {r : WinRec} {c : Crop} {v : VisRect} {sw per seg i : Nat} (h : i ∈ fedColumns r c v sw per seg) :
    v.x0 - r.x ≤ i := by
  simp only [fedColumns] at h
  split at h
  · rw [fedOffsets, mem_span] at h
    omega
  · exact absurd h List.not_mem_nil

/-- R67: each word of a strip's writes comes from one column, so it has one colour. -/
theorem stripWrites_colour {r : WinRec} {src : SourceRec} {v : VisRect} {st : Strip} {i j : Nat}
    (hi : i ∈ fedColumns r (effectiveCrop r src) v src.sw src.format.perStrip st.segment) {w : Nat × Colour}
    (hw : w ∈ stripWrites r src v st) (hword : w.1 = (j - (v.y0 - r.y)) * v.w + (i - (v.x0 - r.x))) :
    w.2 = stripColour src.format st.pixels ((effectiveCrop r src).cx + mapOffset r.w (effectiveCrop r src).cw i -
      st.segment * src.format.perStrip) := by
  obtain ⟨j', hj', i', hi', rfl⟩ := mem_stripWrites.mp hw
  have hcol := fedColumns_bound hi
  have hcol' := fedColumns_bound hi'
  have hmod := congrArg (· % v.w) hword
  simp only [Nat.mul_add_mod_self_right, Nat.mod_eq_of_lt hcol, Nat.mod_eq_of_lt hcol'] at hmod
  have hstart := fedColumns_start hi
  have hstart' := fedColumns_start hi'
  have heq : i' = i := by omega
  rw [heq]

/-! ### Every window (R62) -/

/-- What a strip writes into window n comes to: nothing, or the words the map gives, into its receiving buffer. -/
theorem intakeWindow_mem_cases (m : StoreManager) (src : SourceRec) (s n : Fin 32) (st : Strip) :
    ((m.pub.fedRect s n = none ∨ (m.wins.get n).receives st.tag = none) ∧ (m.intakeWindow src s st n).mem = m.mem) ∨
    ∃ v b, m.pub.fedRect s n = some v ∧ (m.wins.get n).receives st.tag = some b ∧
      (m.intakeWindow src s st n).mem = m.mem.writePixels b.pages (stripWrites (m.pub.active.get n) src v st) := by
  unfold StoreManager.intakeWindow
  cases hv : m.pub.fedRect s n with
  | none => exact .inl ⟨.inl rfl, rfl⟩
  | some v =>
    cases hb : (m.wins.get n).receives st.tag with
    | none => exact .inl ⟨.inr rfl, rfl⟩
    | some b => exact .inr ⟨v, b, rfl, rfl, rfl⟩

/-- A property of memory that each fed window's writes keep is kept by a strip over any windows. -/
theorem foldl_intakeWindow_mem {P : Memory → Prop} {src : SourceRec} {s : Fin 32} {st : Strip} {m : StoreManager}
    {l : List (Fin 32)} (h : ∀ n ∈ l, ∀ v b mem, m.pub.fedRect s n = some v → (m.wins.get n).receives st.tag = some b →
      P mem → P (mem.writePixels b.pages (stripWrites (m.pub.active.get n) src v st))) {k : StoreManager}
    (hpub : k.pub = m.pub) (hwins : k.wins = m.wins) (hk : P k.mem) :
    P (l.foldl (fun acc n => acc.intakeWindow src s st n) k).mem := by
  induction l generalizing k with
  | nil => exact hk
  | cons n l ih =>
    obtain ⟨hn, hrest⟩ := List.forall_mem_cons.mp h
    obtain ⟨-, hwins', -, hpub'⟩ := k.intakeWindow_keeps src s st n
    refine ih hrest (hpub'.trans hpub) (hwins'.trans hwins) ?_
    change P (k.intakeWindow src s st n).mem
    rcases intakeWindow_mem_cases k src s n st with ⟨-, hmem⟩ | ⟨v, b, hv, hb, hmem⟩ <;> rw [hmem]
    · exact hk
    · rw [hpub] at hv ⊢
      rw [hwins] at hb
      exact hn v b _ hv hb hk

theorem intake_mem {P : Memory → Prop} {src : SourceRec} {s : Fin 32} {st : Strip} {m : StoreManager}
    (h : ∀ n v b mem, m.pub.fedRect s n = some v → (m.wins.get n).receives st.tag = some b →
      P mem → P (mem.writePixels b.pages (stripWrites (m.pub.active.get n) src v st))) (hm : P m.mem) :
    P (m.intake src s st).mem :=
  foldl_intakeWindow_mem (fun n _ => h n) rfl rfl hm

/-- R64: the buffer that takes a strip is one the window holds. -/
theorem WinStore.mem_of_receives {w : WinStore} {tag : Byte} {b : Buffer} (h : w.receives tag = some b) : b ∈ w.bufs := by
  unfold WinStore.receives at h
  split at h
  · exact List.mem_of_find?_eq_some h
  · split at h
    · exact List.mem_of_find?_eq_some h
    · cases h

theorem mem_heldPages {m : StoreManager} {p : Page} : p ∈ m.heldPages ↔ ∃ n, ∃ b ∈ (m.wins.get n).bufs, p ∈ b.pages := by
  simp [StoreManager.heldPages, mem_indices]

/-- R77: the pages of one buffer are no page twice. -/
theorem pages_nodup_of_held {m : StoreManager} (h : m.heldPages.Nodup) {n : Fin 32} {b : Buffer}
    (hb : b ∈ (m.wins.get n).bufs) : b.pages.Nodup :=
  (List.nodup_flatMap.mp ((List.nodup_flatMap.mp h).1 n (mem_indices n))).1 b hb

/-- R77: a page in a buffer of one window is in no buffer of another. -/
theorem pages_disjoint_of_held {m : StoreManager} (h : m.heldPages.Nodup) {n k : Fin 32} (hne : n ≠ k) {b d : Buffer}
    (hb : b ∈ (m.wins.get n).bufs) (hd : d ∈ (m.wins.get k).bufs) {p : Page} (hp : p ∈ b.pages) : p ∉ d.pages := by
  have : Std.Symm (Function.onFun List.Disjoint fun n => (m.wins.get n).bufs.flatMap (·.pages)) := ⟨fun _ _ hd => hd.symm⟩
  have hdisjoint := (List.nodup_flatMap.mp h).2.forall (mem_indices n) (mem_indices k) hne
  exact fun hpd => hdisjoint (List.mem_flatMap.mpr ⟨b, hb, hp⟩) (List.mem_flatMap.mpr ⟨d, hd, hpd⟩)

/-- R68: a strip leaves the bytes outside of the words that its windows' writes name. -/
theorem readByte_intake_of_outside {m : StoreManager} {src : SourceRec} {n : Fin 32} {st : Strip} {a : Nat}
    (h : ∀ (k : Fin 32) (v : VisRect) (b : Buffer) (w : Nat × Colour) (place : Nat),
      m.pub.fedRect n k = some v → (m.wins.get k).receives st.tag = some b →
      w ∈ stripWrites (m.pub.active.get k) src v st → wordAddress? b.pages w.1 = some place →
      ¬(place ≤ a ∧ a < place + 4)) : (m.intake src n st).mem.readByte a = m.mem.readByte a :=
  intake_mem (P := fun mem => mem.readByte a = m.mem.readByte a) (fun k v b _ hv hb hmem =>
    (readByte_writePixels_of_outside fun w hw place hplace => h k v b w place hv hb hw hplace).trans hmem) rfl

/-- R64, R77: a strip writes into pages that buffers hold alone. -/
theorem readByte_intake_of_notHeld {m : StoreManager} {a : Nat} (h : ∀ p ∈ m.heldPages, a / 65536 ≠ p.val)
    (src : SourceRec) (n : Fin 32) (st : Strip) : (m.intake src n st).mem.readByte a = m.mem.readByte a := by
  refine readByte_intake_of_outside fun k v b w place _ hb _ hplace => ?_
  obtain ⟨p, hp, j, rfl⟩ := wordAddress?_page hplace
  have hbounds := wordAddress_bounds p j
  have hpage := h p (mem_heldPages.mpr ⟨k, b, WinStore.mem_of_receives hb, hp⟩)
  simp only [Config.pageBytes] at hbounds
  omega

/-- R77: a window's writes leave the words of the buffers of other windows. -/
theorem readStore_writePixels_of_other {m : Memory} {pages others : List Page} {word : Nat} (l : List (Nat × Colour))
    (h : ∀ p ∈ others, p ∉ pages) : (m.writePixels others l).readStore pages word = m.readStore pages word := by
  cases ha : wordAddress? pages word with
  | none => rw [Memory.readStore, Memory.readStore, ha]; rfl
  | some a =>
    rw [readStore_of_address ha, readStore_of_address ha, readWord_writePixels_of_disjoint]
    intro w _ a' ha'
    obtain ⟨p, hp, j, rfl⟩ := wordAddress?_page ha
    obtain ⟨q, hq, i, rfl⟩ := wordAddress?_page ha'
    exact wordAddress_disjoint_of_ne (p := q) (q := p) (fun hqp => h q hq (hqp ▸ hp)) i j

/-- R68: a word that window k takes is read back after the strip: every write to it gives its colour, and other windows write
other pages. -/
theorem readStore_foldl_intakeWindow {m : StoreManager} {src : SourceRec} {s k : Fin 32} {st : Strip} {v : VisRect}
    {b : Buffer} {word a : Nat} {c : Colour} (hheld : m.heldPages.Nodup) (hv : m.pub.fedRect s k = some v)
    (hb : (m.wins.get k).receives st.tag = some b) (ha : wordAddress? b.pages word = some a)
    (hword : ∃ w ∈ stripWrites (m.pub.active.get k) src v st, w.1 = word)
    (hsame : ∀ w ∈ stripWrites (m.pub.active.get k) src v st, w.1 = word → w.2 = c) {l : List (Fin 32)} {u : StoreManager}
    (hpub : u.pub = m.pub) (hwins : u.wins = m.wins) (hu : u.mem.wf)
    (h : k ∈ l ∨ u.mem.readStore b.pages word = some c) :
    (l.foldl (fun acc n => acc.intakeWindow src s st n) u).mem.readStore b.pages word = some c := by
  have hbufs := WinStore.mem_of_receives hb
  induction l generalizing u with
  | nil => exact h.resolve_left List.not_mem_nil
  | cons n l ih =>
    obtain ⟨-, hwins', -, hpub'⟩ := u.intakeWindow_keeps src s st n
    rcases intakeWindow_mem_cases u src s n st with ⟨hnot, hmem⟩ | ⟨v', b', hv', hb', hmem⟩
    · refine ih (hpub'.trans hpub) (hwins'.trans hwins) (by rw [hmem]; exact hu) ?_
      rw [hmem]
      refine h.imp_left fun hk => List.mem_of_ne_of_mem (fun hkn => ?_) hk
      rw [hpub, hwins, ← hkn, hv, hb] at hnot
      simp at hnot
    · refine ih (hpub'.trans hpub) (hwins'.trans hwins) (by rw [hmem]; exact Memory.wf_writePixels _ _ _ hu) ?_
      rw [hmem, hpub]
      rw [hpub] at hv'
      rw [hwins] at hb'
      by_cases hkn : n = k
      · subst hkn
        cases hv.symm.trans hv'
        cases hb.symm.trans hb'
        exact .inr (readStore_writePixels (pages_nodup_of_held hheld hbufs) hu ha hsame (.inl hword))
      · rw [readStore_writePixels_of_other _ fun p hp =>
          pages_disjoint_of_held hheld hkn (WinStore.mem_of_receives hb') hbufs hp]
        exact h.imp_left (List.mem_of_ne_of_mem (Ne.symm hkn))

/-! ### A STRIP cell (R49 to R53) -/

/-- What one piece of a strip's arrival may do to the stores: no byte outside of the held pages changes, and the pages held are
the same. -/
def HeldWritten (m k : StoreManager) : Prop :=
  k.heldPages = m.heldPages ∧ ∀ a, (∀ p ∈ m.heldPages, a / 65536 ≠ p.val) → k.mem.readByte a = m.mem.readByte a

theorem HeldWritten.refl (m : StoreManager) : HeldWritten m m := ⟨rfl, fun _ _ => rfl⟩

theorem HeldWritten.trans {m k j : StoreManager} (h : HeldWritten m k) (h' : HeldWritten k j) : HeldWritten m j :=
  ⟨h'.1.trans h.1, fun a ha => (h'.2 a (by rw [h.1]; exact ha)).trans (h.2 a ha)⟩

theorem HeldWritten.mapped (m : StoreManager) {f : Fin 32 → WinStore → WinStore} (h : ∀ n w, WinMove w (f n w)) :
    HeldWritten m (m.mapWins f) := ⟨mapWins_heldPages h, fun _ _ => rfl⟩

theorem HeldWritten.frameStart (m : StoreManager) (active : Table WinRec 32) (s : Fin 32) (tag : Byte) :
    HeldWritten m (m.frameStart active s tag) := .mapped m fun _ w => .started w _ _ _

theorem HeldWritten.frameEnd (m : StoreManager) (active : Table WinRec 32) (s : Fin 32) (tag : Byte) (complete : Bool) :
    HeldWritten m (m.frameEnd active s tag complete) := by
  refine .mapped m fun n w => ?_
  cases complete
  · exact .rejected w s tag
  · exact .completed w s tag _

theorem HeldWritten.intake (m : StoreManager) (src : SourceRec) (s : Fin 32) (st : Strip) :
    HeldWritten m (m.intake src s st) := by
  obtain ⟨-, hwins, -⟩ := m.intake_keeps src s st
  refine ⟨?_, fun a ha => readByte_intake_of_notHeld ha src s st⟩
  rw [StoreManager.heldPages, hwins]
  rfl

theorem endFrame_heldWritten (s : State) (n : Fin 32) : HeldWritten s.store (s.endFrame n).store := by
  rw [endFrame_store]
  exact .frameEnd _ _ _ _ _

theorem acceptStrip_heldWritten (s : State) (n : Fin 32) (st : Strip) : HeldWritten s.store (s.acceptStrip n st).store := by
  have htaken : HeldWritten s.store (s.takeStrip n st).store := by
    rw [takeStrip_store]
    exact .intake _ _ _ _
  rw [acceptStrip_eq]
  split
  · exact htaken.trans (endFrame_heldWritten _ n)
  · exact htaken

theorem startFrame_heldWritten (s : State) (n : Fin 32) (st : Strip) : HeldWritten s.store (s.startFrame n st).store := by
  have hended : HeldWritten s.store (if (s.src.states.get n).frameOpen = true then s.endFrame n else s).store := by
    split
    · exact endFrame_heldWritten s n
    · exact .refl _
  rw [startFrame_eq]
  generalize (if (s.src.states.get n).frameOpen = true then s.endFrame n else s) = u at hended ⊢
  have hopened : HeldWritten u.store (u.openFrame n st.tag).store := .frameStart _ _ _ _
  exact (hended.trans hopened).trans (acceptStrip_heldWritten _ n st)

theorem stripArrival_heldWritten (s : State) (st : Strip) : HeldWritten s.store (s.stripArrival st).store := by
  unfold State.stripArrival
  split
  · exact .refl _
  · exact .refl _
  · simp only
    split
    · exact startFrame_heldWritten _ _ _
    · split
      · split
        · exact acceptStrip_heldWritten _ _ _
        · exact .refl _
      · exact .refl _

theorem workMove_mem {s t : State} (h : WorkMove s t) : t.store.mem = s.store.mem := by
  cases h with
  | outer t h => rw [h]
  | written t cls table i bytes h =>
    rcases writeRecord_cases h with ⟨-, n, r, -, -, -, rfl⟩ | ⟨-, n, r, -, rfl⟩ | ⟨-, r, -, rfl⟩ | ⟨-, j, g, rfl⟩ |
      ⟨-, j, r, rfl⟩ | ⟨-, j, g, rfl⟩ <;> rfl
  | zeroed => rfl
  | scene t h hmove => rw [h]
  | cueAdded => rfl
  | cuesRemoved t h => rw [h]
  | strobed t h => rw [h]

/-- A command taken leaves frame memory. -/
theorem takeCommand_mem (s : State) (c : Control) : (s.takeCommand c).store.mem = s.store.mem := by
  rcases takeCommand_cases s c with ⟨-, h⟩ | ⟨-, h⟩ <;> rw [h]
  · rw [startTileReset_store]
    exact (s.store.tileReset_fields s.timer.setup.geo).1
  · rw [(offerReply_keeps _ _).2.2.2.1]
    exact (judge_run s c).keeps (P := fun u => u.store.mem = s.store.mem) (fun _ _ hm h => (workMove_mem hm).trans h) rfl

theorem expireCue_mem (s : State) : s.expireCue.store.mem = s.store.mem := by
  simp only [State.expireCue]
  split
  · rfl
  · refine (handSwitches_memory _ _).1.trans ?_
    split <;> simp

theorem stepTour_mem (s : State) (k : Fin 32) : (s.stepTour k).store.mem = s.store.mem := by
  simp only [State.stepTour]
  split
  · exact (handSwitches_memory _ _).1
  · rfl

/-- A received cell that is no STRIP cell leaves frame memory. -/
theorem exec_cellReceived_mem {s t : State} {c : Cell} {placeFirst : Bool} (h : exec (.cellReceived c placeFirst) s = .next t)
    (hkind : cellKind c ≠ .strip) : t.store.mem = s.store.mem := by
  rcases exec_cellReceived_cases h with ⟨-, -, -, ⟨hstore, -⟩, -⟩ | ⟨f, ⟨rfl, hstrip⟩ | rfl | rfl⟩
  · rw [hstore]
  · exact absurd hstrip hkind
  · simp
  · exact takeCommand_mem (s.mapRing f) _

/-- Settles O51: other bytes by `readByte_intake_of_outside`, a STRIP cell by `HeldWritten`, the pixels written by
`readStore_foldl_intakeWindow`. -/
theorem stripWritesStorePixels : Obligations.StripWritesStorePixels := by
  unfold Obligations.StripWritesStorePixels
  refine ⟨fun m src n st a h => readByte_intake_of_outside h, fun s c placeFirst t a _ hexec ha => ?_,
    fun m src n k st r cr v b i j hm hheld hr hcr hv hb hlen hj hi => ?_⟩
  · rcases exec_cellReceived_cases hexec with ⟨-, -, -, ⟨-, hmem⟩, -⟩ | ⟨f, ⟨rfl, -⟩ | rfl | rfl⟩
    · exact hmem a
    · exact (stripArrival_heldWritten (s.mapRing f) _).2 a ha
    · simp
    · rw [takeCommand_mem]
      rfl
  · subst hr hcr
    have hbound : (j - (v.y0 - (m.pub.active.get k).y)) * v.w + (i - (v.x0 - (m.pub.active.get k).x)) < v.w * v.h :=
      stripWrites_lt (mem_stripWrites.mpr ⟨j, hj, i, hi, rfl⟩)
    have hroom : v.w * v.h ≤ 16384 * b.pages.length := by
      rw [hlen]
      exact (ceilDiv_le_iff (by decide) _ _).mp le_rfl
    obtain ⟨_, ha⟩ := wordAddress?_of_lt (lt_of_lt_of_le hbound hroom)
    exact readStore_foldl_intakeWindow hheld hv hb ha ⟨_, mem_stripWrites.mpr ⟨j, hj, i, hi, rfl⟩, rfl⟩
      (fun w hw hword => stripWrites_colour hi hw hword) rfl rfl hm (.inl (mem_indices k))

/-! ### Every other command (R68, R77, R91) -/

/-- Settles O50: every command by `exec_cases`. -/
theorem onlyStripsAndMarksWriteMemory : Obligations.OnlyStripsAndMarksWriteMemory := by
  unfold Obligations.OnlyStripsAndMarksWriteMemory
  intro c s t h hpower hmark hstrip
  have hunmarked : (∀ o, c ≠ .frameMark o) ∧ c ≠ .lineStart ∨ s.marksNext = false := hmark.imp_right marksNext_eq_false
  suffices hmem : t.store.mem = s.store.mem from fun a => by rw [hmem]
  have hlimit : ∀ f : State → State, (f s).store.mem = s.store.mem → exec c s = .next (s.whenRunning f) →
      t.store.mem = s.store.mem := fun f hf hexec => by
    cases h.symm.trans hexec
    exact whenRunning_of (P := fun u => u.store.mem = s.store.mem) rfl hf
  have hline : exec .lineStart s = .next t → s.marksNext = false → t.store.mem = s.store.mem := fun hexec hend => by
    cases hexec.symm.trans (exec_lineStart_of_unmarked hend)
    obtain ⟨-, -, -, -, hstore, -⟩ := panelLine_keeps s
    rw [hstore]
  rcases exec_cases h with ⟨⟨-, -, ⟨hstore, -⟩, -⟩, -⟩ | ⟨cell, placeFirst, rfl⟩ | ⟨o, rfl⟩ | rfl | rfl | rfl | ⟨k, rfl⟩ |
    ⟨n, rfl⟩ | ⟨n, rfl⟩
  · rw [hstore]
  · exact exec_cellReceived_mem h (hstrip cell placeFirst rfl)
  · have hend := hunmarked.resolve_left fun hne => hne.1 o rfl
    rcases exec_frameMark_cases o s with ⟨hm, -⟩ | ⟨-, he⟩
    · exact absurd (hend.symm.trans hm) (by decide)
    · exact hline (he ▸ h) hend
  · exact hline h (hunmarked.resolve_left fun hne => hne.2 rfl)
  · exact absurd rfl hpower
  · exact hlimit _ (expireCue_mem s) rfl
  · exact hlimit _ (stepTour_mem s k) rfl
  · exact hlimit _ (by rw [stallSource_store]) rfl
  · exact hlimit _ (by rw [loseSource_store]) rfl

end Sys2Proof.Machine
end

section
/-! The work of the single blocks at a frame mark, each with what it leaves and what it latches: the Source Tracker (R57, R58),
the Command Unit's interval (R165), the Compositor (R96), the Scene Controller (R22) and the Store Manager (R83, R92). -/

namespace Sys2Proof.Machine

/-! ### The stall and loss limits (R57) -/

theorem SourceTrack.stalls_iff (t : SourceTrack) (r : SourceRec) :
    t.stalls r = true ↔ ((t.state = .waiting ∨ t.state = .live) ∧ r.stallLimit ≤ t.sinceStart) := by
  simp [SourceTrack.stalls]

theorem SourceTrack.loses_iff (t : SourceTrack) (r : SourceRec) :
    t.loses r = true ↔ ((t.state = .waiting ∨ t.state = .live ∨ t.state = .stalled) ∧ r.lossLimit ≤ t.sinceStart) := by
  simp [SourceTrack.loses, or_assoc]

/-- R57: a track after its stall check. -/
def SourceTrack.stallChecked (t : SourceTrack) (r : SourceRec) : SourceTrack :=
  if t.stalls r = true then { t with state := .stalled } else t

/-- R57: a track after its loss check. -/
def SourceTrack.lossChecked (t : SourceTrack) (r : SourceRec) : SourceTrack :=
  if t.loses r = true then { t with state := .lost } else t

theorem stallSource_of_stalls {s : State} {n : Fin 32} (h : (s.src.states.get n).stalls (s.src.records.get n) = true) :
    s.stallSource n = latch .sourceStalled (s.setTrack n { s.src.states.get n with state := .stalled }) := if_pos h

theorem stallSource_of_not {s : State} {n : Fin 32} (h : (s.src.states.get n).stalls (s.src.records.get n) = false) :
    s.stallSource n = s := if_neg (by rw [h]; decide)

theorem loseSource_of_loses {s : State} {n : Fin 32} (h : (s.src.states.get n).loses (s.src.records.get n) = true) :
    s.loseSource n = latch .sourceLost (s.setTrack n { s.src.states.get n with state := .lost }) := if_pos h

theorem loseSource_of_not {s : State} {n : Fin 32} (h : (s.src.states.get n).loses (s.src.records.get n) = false) :
    s.loseSource n = s := if_neg (by rw [h]; decide)

theorem stallSource_src (s : State) (n : Fin 32) : (s.stallSource n).src = { s.src with
    states := s.src.states.set n ((s.src.states.get n).stallChecked (s.src.records.get n)) } := by
  unfold SourceTrack.stallChecked
  split
  next h => rw [stallSource_of_stalls h, (latch_keeps _ _).2.2.1]; rfl
  next h => rw [stallSource_of_not (Bool.eq_false_iff.mpr h), Table.set_get]

theorem loseSource_src (s : State) (n : Fin 32) : (s.loseSource n).src = { s.src with
    states := s.src.states.set n ((s.src.states.get n).lossChecked (s.src.records.get n)) } := by
  unfold SourceTrack.lossChecked
  split
  next h => rw [loseSource_of_loses h, (latch_keeps _ _).2.2.1]; rfl
  next h => rw [loseSource_of_not (Bool.eq_false_iff.mpr h), Table.set_get]

theorem stallSource_noted {s : State} {n : Fin 32} {k : SourceTrack} {r : SourceRec} {m : BitVec 12}
    (hk : s.src.states.get n = k) (hr : s.src.records.get n = r) (hm : s.timer.setup.eventMask = m) :
    Noted False (OneKind (k.stalls r = true) .sourceStalled m) s (s.stallSource n) := by
  subst hk hr hm
  exact .of_ite (fun _ => .latch_of_eq _ rfl rfl rfl) fun _ => .refl s

theorem loseSource_noted {s : State} {n : Fin 32} {k : SourceTrack} {r : SourceRec} {m : BitVec 12}
    (hk : s.src.states.get n = k) (hr : s.src.records.get n = r) (hm : s.timer.setup.eventMask = m) :
    Noted False (OneKind (k.loses r = true) .sourceLost m) s (s.loseSource n) := by
  subst hk hr hm
  exact .of_ite (fun _ => .latch_of_eq _ rfl rfl rfl) fun _ => .refl s

/-! ### The Source Tracker at a mark (R57, R58) -/

/-- R57, R58: a track after a mark: counted, then the stall check, then the loss check. -/
def SourceTrack.marked (t : SourceTrack) (r : SourceRec) : SourceTrack := (t.counted.stallChecked r).lossChecked r

/-- R57, R58: the Source Tracker after a mark. -/
def Tracker.marked (t : Tracker) : Tracker :=
  { t with states := Table.ofFn fun n => (t.states.get n).marked (t.records.get n) }

/-- R57, R164: the kinds that the Source Tracker's work at a mark latches for the sources of `l`. -/
def SourceKindsOf (t : Tracker) (m : BitVec 12) (l : List (Fin 32)) : EventKind → BitVec 12 → Prop := fun j k =>
  OneKind (∃ n ∈ l, (t.states.get n).counted.stalls (t.records.get n) = true) .sourceStalled m j k ∨
  OneKind (∃ n ∈ l, ((t.states.get n).counted.stallChecked (t.records.get n)).loses (t.records.get n) = true) .sourceLost m j k

theorem setTrack_src (s : State) (n : Fin 32) (t : SourceTrack) :
    (s.setTrack n t).src = { s.src with states := s.src.states.set n t } := rfl

theorem markSource_src (s : State) (n : Fin 32) : (s.markSource n).src = { s.src with
    states := s.src.states.set n ((s.src.states.get n).marked (s.src.records.get n)) } := by
  unfold State.markSource
  rw [loseSource_src, stallSource_src, setTrack_src]
  simp only [Table.get_set_self, Table.set_set]
  rfl

theorem oneKind_or (a b : Prop) (i : EventKind) (m : BitVec 12) (j : EventKind) (k : BitVec 12) :
    OneKind (a ∨ b) i m j k ↔ OneKind a i m j k ∨ OneKind b i m j k := or_and_right

theorem sourceKindsOf_cons (t : Tracker) (m : BitVec 12) (n : Fin 32) (l : List (Fin 32)) (j : EventKind) (k : BitVec 12) :
    SourceKindsOf t m (n :: l) j k ↔ SourceKindsOf t m [n] j k ∨ SourceKindsOf t m l j k := by
  simp only [SourceKindsOf, List.mem_cons, List.not_mem_nil, or_false, exists_eq_left, exists_eq_or_imp, oneKind_or]
  exact or_or_or_comm

theorem markSource_noted {s : State} {n : Fin 32} {t : Tracker} {m : BitVec 12} (hk : s.src.states.get n = t.states.get n)
    (hr : s.src.records = t.records) (hm : s.timer.setup.eventMask = m) :
    Noted False (SourceKindsOf t m [n]) s (s.markSource n) := by
  obtain ⟨u, hu⟩ : ∃ u, u = s.setTrack n (t.states.get n).counted := ⟨_, rfl⟩
  have hget : u.src.states.get n = (t.states.get n).counted := by rw [hu, setTrack_src]; exact Table.get_set_self _ _ _
  have hrec : u.src.records.get n = t.records.get n := by rw [hu, ← hr]; rfl
  have hmask : u.timer.setup.eventMask = m := by rw [hu]; exact hm
  have hcounted : Noted False NoKind s u := by rw [hu]; exact .of_eq rfl rfl
  have hstall := stallSource_noted hget hrec hmask
  have hget' : (u.stallSource n).src.states.get n = (t.states.get n).counted.stallChecked (t.records.get n) := by
    rw [stallSource_src, hget, hrec]
    exact Table.get_set_self _ _ _
  have hrec' : (u.stallSource n).src.records.get n = t.records.get n := by
    rw [stallSource_src]
    exact hrec
  have hmask' : (u.stallSource n).timer.setup.eventMask = m := by
    rw [(stallSource_keeps n u).1]
    exact hmask
  have hlose := loseSource_noted hget' hrec' hmask'
  unfold State.markSource
  rw [hk, ← hu]
  refine (hcounted.before (hstall.trans hlose)).congr (by simp) fun j k => ?_
  simp only [SourceKindsOf, List.mem_singleton, exists_eq_left]

/-- R57, R58: the sources of `l`, one after the other: each source's work reads and writes its own track. -/
theorem foldl_markSource {t : Tracker} {m : BitVec 12} {l : List (Fin 32)} (hl : l.Nodup) {u : State}
    (hrecords : u.src.records = t.records) (hmask : u.timer.setup.eventMask = m)
    (hu : ∀ n ∈ l, u.src.states.get n = t.states.get n) :
    Noted False (SourceKindsOf t m l) u (l.foldl (fun acc n => acc.markSource n) u) ∧
    (l.foldl (fun acc n => acc.markSource n) u).src.records = t.records ∧
    ∀ n, (l.foldl (fun acc n => acc.markSource n) u).src.states.get n =
      if n ∈ l then (t.states.get n).marked (t.records.get n) else u.src.states.get n := by
  induction l generalizing u with
  | nil =>
    refine ⟨(Noted.refl u).congr .rfl fun j k => ?_, hrecords, fun n => by simp⟩
    simp [SourceKindsOf, OneKind, NoKind]
  | cons i l ih =>
    obtain ⟨hi, hl⟩ := List.nodup_cons.mp hl
    have hsrc := markSource_src u i
    have hfirst := markSource_noted (hu i List.mem_cons_self) hrecords hmask
    obtain ⟨hnoted, hrec, hget⟩ := ih hl (u := u.markSource i) (by rw [hsrc]; exact hrecords)
      (by rw [(markSource_keeps i u).1]; exact hmask) fun n hn => by
        rw [hsrc]
        exact (Table.get_set_of_ne _ _ fun h : n = i => hi (h ▸ hn)).trans (hu n (List.mem_cons_of_mem _ hn))
    refine ⟨(hfirst.trans hnoted).congr (by simp) fun j k => ?_, hrec, fun n => (hget n).trans ?_⟩
    · exact (sourceKindsOf_cons t m i l j k).symm
    · rw [hsrc]
      by_cases hn : n = i
      · subst hn
        rw [if_neg hi, if_pos List.mem_cons_self]
        refine (Table.get_set_self _ _ _).trans ?_
        rw [hu n List.mem_cons_self, hrecords]
      · simp only [List.mem_cons, hn, false_or]
        rw [Table.get_set_of_ne _ _ hn]

/-- R57, R164: the kinds that the Source Tracker's work at a mark latches. -/
def SourceKinds (t : Tracker) (m : BitVec 12) : EventKind → BitVec 12 → Prop := SourceKindsOf t m (indices 32)

theorem Tracker.ext_fields {a b : Tracker} (hrecords : a.records = b.records) (hstates : a.states = b.states) : a = b := by
  cases a
  cases b
  exact congrArg₂ Tracker.mk hrecords hstates

theorem markSources_spec (s : State) : s.markSources.src = s.src.marked ∧
    Noted False (SourceKinds s.src s.timer.setup.eventMask) s s.markSources := by
  unfold State.markSources SourceKinds
  obtain ⟨hnoted, hrec, hget⟩ := foldl_markSource (t := s.src) (indices_nodup 32) (u := s) rfl rfl fun _ _ => rfl
  generalize (indices 32).foldl (fun acc n => acc.markSource n) s = u at hnoted hrec hget ⊢
  refine ⟨Tracker.ext_fields hrec (Table.ext_get fun n => ?_), hnoted⟩
  rw [hget n, if_pos (mem_indices n), Tracker.marked, Table.get_ofFn]

/-! ### The Command Unit and the Compositor at a mark (R165, R96) -/

theorem markInterval_noted (s : State) :
    Noted (s.timer.setup.statusInterval ≤ s.cmd.intervalCount + 1) NoKind s s.markInterval := by
  have hstart : Noted False NoKind s { s with cmd := { s.cmd with intervalCount := s.cmd.intervalCount + 1 } } := .of_eq rfl rfl
  unfold State.markInterval
  by_cases h : s.timer.setup.statusInterval ≤ s.cmd.intervalCount + 1
  · rw [statusInterval_of_reached (s := { s with cmd := { s.cmd with intervalCount := s.cmd.intervalCount + 1 } }) h]
    exact ⟨fun k => by simp [NoKind], fun _ => ⟨_, rfl⟩, fun hn => absurd h hn⟩
  · rw [statusInterval_of_below (s := { s with cmd := { s.cmd with intervalCount := s.cmd.intervalCount + 1 } })
      (Nat.not_le.mp h)]
    exact hstart.congr (by simp [h]) fun _ _ => .rfl

theorem markInterval_count (s : State) : s.markInterval.cmd.intervalCount =
    if s.timer.setup.statusInterval ≤ s.cmd.intervalCount + 1 then 0 else s.cmd.intervalCount + 1 := by
  unfold State.markInterval State.statusInterval
  split <;> rfl

/-- R165: the STATUS cell of the interval reports the tile as the mark leaves it, where the interval comes last. -/
theorem markInterval_slot {s : State} (h : s.timer.setup.statusInterval ≤ s.cmd.intervalCount + 1) :
    s.markInterval.ring.slot = some (statusBody s.markInterval) := by
  unfold State.markInterval
  rw [statusInterval_of_reached (s := { s with cmd := { s.cmd with intervalCount := s.cmd.intervalCount + 1 } }) h]
  rfl

theorem markCompositor_noted (s : State) : Noted False NoKind s s.markCompositor := .of_eq rfl rfl

theorem Compositor.takeGate_of_opened (c : Compositor) {gate : Gate} (h : gate = .opened) (level : Nat) :
    c.takeGate gate level = { c with output := .show, backlight := level } := by rw [h]; rfl

theorem Compositor.takeGate_of_gated (c : Compositor) {gate : Gate} (h : gate = .gated) (level : Nat) :
    c.takeGate gate level = { c with output := .black, backlight := 0 } := by rw [h]; rfl

end Sys2Proof.Machine
end

section
/-! The whole frame mark (R114): what it leaves in every block, and what it latches. -/

namespace Sys2Proof.Machine

/-! ### The Scene Controller at a mark (R22) -/

/-- R22, step 1: what the due cues of a queue come to. -/
def cuesAtMark (n : BitVec 32) (a : Scene) (q : List Cue) : CueWork := CueWork.expire n q.length ⟨⟨a, []⟩, q⟩

/-- R22, step 2: what the pending clears and the trigger units come to, with N and the flag words of a timer. -/
def unitsAtMark (t : Timer) (a : Scene) (u : CueUnit) : SceneWork :=
  SceneWork.unitsAct ⟨(cuesAtMark t.wallN a u.queue).work.scene.takeClears, (cuesAtMark t.wallN a u.queue).work.switched⟩ u
    t.prevFlags t.curFlags

/-- R22, step 3: the scene after the commit. -/
def committedAtMark (t : Timer) (a : Scene) (u : CueUnit) : Scene :=
  if (unitsAtMark t a u).scene.commitPending = true then (unitsAtMark t a u).scene.commit t.wallN
  else (unitsAtMark t a u).scene

/-- R11: the change set that a mark hands over. -/
def changesAtMark (t : Timer) (a : Scene) (u : CueUnit) : Table WinChange 32 :=
  if (unitsAtMark t a u).scene.commitPending = true then (unitsAtMark t a u).scene.changeSet
  else Table.fill 32 WinChange.none

/-- R22: the scene that a mark leaves. -/
def markedScene (t : Timer) (a : Scene) (u : CueUnit) : Scene := (committedAtMark t a u).tourSteps t.wallN

/-- R23: what a mark hands over. -/
def handAtMark (t : Timer) (a : Scene) (u : CueUnit) (geoChanged : Bool) : HandOver where
  active := (markedScene t a u).active
  activeList := (markedScene t a u).activeList
  tours := (markedScene t a u).wins.map (·.tourSource)
  geo := t.setup.geo
  changes := changesAtMark t a u
  switched := (unitsAtMark t a u).switched ++ (committedAtMark t a u).tourSwitches (changesAtMark t a u) t.wallN
  geoChanged := geoChanged

/-- R164: the kinds that the Scene Controller's work at a mark latches. -/
def SceneKinds (t : Timer) (a : Scene) (u : CueUnit) : EventKind → BitVec 12 → Prop := fun j m =>
  OneKind (u.queue.any (isLate t.wallN) = true) .cueLate t.setup.eventMask j m ∨
  OneKind ((unitsAtMark t a u).scene.commitPending = true) .commitTaken t.setup.eventMask j m

theorem markCues_spec (s : State) :
    s.markCues.1.timer = s.timer ∧ s.markCues.1.scene = (cuesAtMark s.timer.wallN s.scene s.cues.queue).work.scene ∧
    s.markCues.1.cues = { s.cues with queue := (cuesAtMark s.timer.wallN s.scene s.cues.queue).queue } ∧
    s.markCues.2 = (cuesAtMark s.timer.wallN s.scene s.cues.queue).work.switched ∧
    Noted False (OneKind (s.cues.queue.any (isLate s.timer.wallN) = true) .cueLate s.timer.setup.eventMask) s s.markCues.1 := by
  refine ⟨(markCues_keeps s).1, ?_, ?_, rfl, .of_ite (fun _ => .latch_of_eq _ rfl rfl rfl) fun _ => .of_eq rfl rfl⟩
  all_goals
    simp only [State.markCues]
    split
  · rw [(latch_keeps _ _).2.1]; rfl
  · rfl
  · rw [(latch_keeps _ _).2.2.2.2.2.1]; rfl
  · rfl

theorem markCommit_spec (s : State) : s.markCommit.1.timer = s.timer ∧
    s.markCommit.1.scene = (if s.scene.commitPending = true then s.scene.commit s.timer.wallN else s.scene) ∧
    s.markCommit.1.cues = s.cues ∧
    s.markCommit.2 = (if s.scene.commitPending = true then s.scene.changeSet else Table.fill 32 WinChange.none) ∧
    Noted False (OneKind (s.scene.commitPending = true) .commitTaken s.timer.setup.eventMask) s s.markCommit.1 := by
  unfold State.markCommit
  split
  next h =>
    obtain ⟨htimer, hscene, -, -, -, hcues, -⟩ := latch_keeps .commitTaken { s with scene := s.scene.commit s.timer.wallN }
    have hlatched := Noted.latch_of_eq (s := s) (m := s.timer.setup.eventMask) .commitTaken
      (t := { s with scene := s.scene.commit s.timer.wallN }) rfl rfl rfl
    exact ⟨htimer, hscene, hcues, rfl, hlatched.congr .rfl fun j m => by simp [OneKind, h]⟩
  next h => exact ⟨rfl, rfl, rfl, rfl, (Noted.refl s).congr .rfl fun j m => by simp [OneKind, NoKind, h]⟩

theorem markScene_spec (s : State) (g : Bool) :
    (s.markScene g).1.scene = markedScene s.timer s.scene s.cues ∧
    (s.markScene g).1.cues = { s.cues with
      queue := (cuesAtMark s.timer.wallN s.scene s.cues.queue).queue
      strobes := Table.fill 8 false } ∧
    (s.markScene g).2 = handAtMark s.timer s.scene s.cues g ∧
    Noted False (SceneKinds s.timer s.scene s.cues) s (s.markScene g).1 := by
  simp only [State.markScene]
  obtain ⟨htimer, hscene, hcues, hswitched, hnoted⟩ := markCues_spec s
  generalize s.markCues = cued at htimer hscene hcues hswitched hnoted ⊢
  obtain ⟨u, l⟩ := cued
  dsimp only at htimer hscene hcues hswitched hnoted ⊢
  have hwork : SceneWork.unitsAct ⟨u.scene.takeClears, l⟩ u.cues u.timer.prevFlags u.timer.curFlags =
      unitsAtMark s.timer s.scene s.cues := by
    rw [htimer, hscene, hcues, hswitched]
    rfl
  have hacted : (u.markTriggers l).1.timer = s.timer ∧ (u.markTriggers l).1.scene = (unitsAtMark s.timer s.scene s.cues).scene ∧
      (u.markTriggers l).1.cues = { s.cues with
        queue := (cuesAtMark s.timer.wallN s.scene s.cues.queue).queue
        strobes := Table.fill 8 false } ∧
      (u.markTriggers l).2 = (unitsAtMark s.timer s.scene s.cues).switched ∧ Noted False NoKind u (u.markTriggers l).1 := by
    rw [← hwork]
    exact ⟨htimer, rfl, by simp only [State.markTriggers, hcues], rfl, .of_eq rfl rfl⟩
  obtain ⟨htimer', hscene', hcues', hswitched', hnoted'⟩ := hacted
  generalize u.markTriggers l = acted at htimer' hscene' hcues' hswitched' hnoted' ⊢
  obtain ⟨v, l'⟩ := acted
  dsimp only at htimer' hscene' hcues' hswitched' hnoted' ⊢
  obtain ⟨htimer'', hscene'', hcues'', hchanges, hnoted''⟩ := markCommit_spec v
  rw [htimer', hscene'] at hscene'' hnoted''
  rw [hscene'] at hchanges
  rw [htimer'] at htimer''
  rw [hcues'] at hcues''
  generalize v.markCommit = done at htimer'' hscene'' hcues'' hchanges hnoted'' ⊢
  obtain ⟨w, changes⟩ := done
  dsimp only at htimer'' hscene'' hcues'' hchanges hnoted'' ⊢
  have hdone : w.scene = committedAtMark s.timer s.scene s.cues := hscene''
  have hlast : Noted False NoKind w { w with scene := w.scene.tourSteps w.timer.wallN } := .of_eq rfl rfl
  have hall := ((hnoted.after hnoted').trans hnoted'').after hlast
  refine ⟨by rw [hdone, htimer'']; rfl, hcues'', ?_, hall.congr (or_self_iff) fun j m => Iff.rfl⟩
  rw [hdone, htimer'', hchanges, hswitched']
  simp only [State.handOver]
  rfl

/-! ### The Store Manager at a mark (R83, R92) -/

theorem markStore_noted (s : State) (h : HandOver) : Noted False
    (OneKind (h.allocates = true ∧ 1 ≤ (s.store.atMark h s.src.states).degraded) .nomem s.timer.setup.eventMask)
    s (s.markStore h) := by
  have hnoted : Noted False (OneKind ((h.allocates && decide (1 ≤ (s.store.atMark h s.src.states).degraded)) = true) .nomem
      s.timer.setup.eventMask) s (s.markStore h) := .of_ite (fun _ => .latch_of_eq _ rfl rfl rfl) fun _ => .of_eq rfl rfl
  exact hnoted.congr .rfl fun j m => by simp [OneKind]

/-! ### The whole mark (R114) -/

/-- What the frame mark hands over. -/
def State.handMarked (s : State) : HandOver :=
  handAtMark s.timer.marked s.scene s.cues (decide (s.timer.marked.setup.geo ≠ s.timer.setup.geo))

/-- What the frame mark leaves in the Store Manager, whose work reads the source states before or after the Source Tracker's. -/
def State.storeMarked (s : State) (trackerFirst : Bool) : StoreManager :=
  s.store.atMark s.handMarked (if trackerFirst = true then s.src.marked else s.src).states

/-- R164: the kinds that the frame mark latches, each with the mask that judges it. -/
def MarkKinds (s : State) (trackerFirst : Bool) : EventKind → BitVec 12 → Prop := fun j m =>
  TimerKinds s.timer j m ∨ SourceKinds s.src s.timer.marked.setup.eventMask j m ∨
  SceneKinds s.timer.marked s.scene s.cues j m ∨
  OneKind (s.handMarked.allocates = true ∧ 1 ≤ (s.storeMarked trackerFirst).degraded) .nomem s.timer.marked.setup.eventMask j m

/-- What the frame mark from s to t leaves in every block that it changes, and what it latches. -/
structure Marked (s : State) (o : MarkOrder) (t : State) : Prop where
  timer : t.timer = s.timer.marked
  src : t.src = s.src.marked
  scene : t.scene = markedScene s.timer.marked s.scene s.cues
  cues : t.cues = { s.cues with
    queue := (cuesAtMark s.timer.marked.wallN s.scene s.cues.queue).queue
    strobes := Table.fill 8 false }
  store : t.store = s.storeMarked o.trackerFirst
  comp : t.comp = s.comp.takeGate (if o.compositorFirst = true then s.timer else s.timer.marked).gate
    (if o.compositorFirst = true then s.timer else s.timer.marked).setup.backlight
  count : t.cmd.intervalCount = if (if o.commandFirst = true then s.timer else s.timer.marked).setup.statusInterval ≤
    s.cmd.intervalCount + 1 then 0 else s.cmd.intervalCount + 1
  noted : Noted ((if o.commandFirst = true then s.timer else s.timer.marked).setup.statusInterval ≤ s.cmd.intervalCount + 1)
    (MarkKinds s o.trackerFirst) s t
  slot : o.commandFirst = false → s.timer.marked.setup.statusInterval ≤ s.cmd.intervalCount + 1 →
    t.ring.slot = some (statusBody t)

/-- The blocks that an order puts first at a mark. -/
def State.markOpened (s : State) (o : MarkOrder) : State :=
  let s0 := if o.compositorFirst then s.markCompositor else s
  if o.commandFirst then s0.markInterval else s0

/-- The Frame Timer's work at a mark, and the Source Tracker's where an order puts it next. -/
def State.markTimed (s : State) (trackerFirst : Bool) : State :=
  if trackerFirst then s.markTimer.markSources else s.markTimer

/-- The blocks whose order at a mark is fixed, and the Source Tracker. -/
def State.markBlocks (s : State) (trackerFirst : Bool) : State :=
  let scened := (s.markTimed trackerFirst).markScene (decide (s.markTimer.timer.setup.geo ≠ s.timer.setup.geo))
  let s5 := scened.1.markStore scened.2
  if trackerFirst then s5 else s5.markSources

/-- The blocks that an order puts last at a mark. -/
def State.markClosed (s : State) (o : MarkOrder) : State :=
  let s7 := if o.compositorFirst then s else s.markCompositor
  if o.commandFirst then s7 else s7.markInterval

theorem frameMark_eq (s : State) (o : MarkOrder) :
    s.frameMark o = ((s.markOpened o).markBlocks o.trackerFirst).markClosed o := rfl

theorem markOpened_spec (s : State) (o : MarkOrder) :
    ((s.markOpened o).timer = s.timer ∧ (s.markOpened o).scene = s.scene ∧ (s.markOpened o).src = s.src ∧
      (s.markOpened o).store = s.store ∧ (s.markOpened o).cues = s.cues) ∧
    (s.markOpened o).comp = (if o.compositorFirst = true then s.comp.takeGate s.timer.gate s.timer.setup.backlight else s.comp) ∧
    (s.markOpened o).cmd.intervalCount = (if o.commandFirst = true then
      (if s.timer.setup.statusInterval ≤ s.cmd.intervalCount + 1 then 0 else s.cmd.intervalCount + 1)
      else s.cmd.intervalCount) ∧
    Noted (o.commandFirst = true ∧ s.timer.setup.statusInterval ≤ s.cmd.intervalCount + 1) NoKind s (s.markOpened o) := by
  obtain ⟨u, hu⟩ : ∃ u, u = if o.compositorFirst then s.markCompositor else s := ⟨_, rfl⟩
  have hopened : s.markOpened o = if o.commandFirst then u.markInterval else u := by rw [hu]; rfl
  have hkept : u.cmd = s.cmd ∧ u.timer = s.timer ∧ u.scene = s.scene ∧ u.src = s.src ∧ u.store = s.store ∧ u.cues = s.cues := by
    rw [hu]
    split <;> exact ⟨rfl, rfl, rfl, rfl, rfl, rfl⟩
  have hcomp : u.comp = if o.compositorFirst = true then s.comp.takeGate s.timer.gate s.timer.setup.backlight else s.comp := by
    rw [hu]
    split <;> rfl
  have hnoted : Noted False NoKind s u := by
    rw [hu]
    split
    · exact markCompositor_noted s
    · exact .refl s
  clear hu
  obtain ⟨hcmd, htimer, hscene, hsrc, hstore, hcues⟩ := hkept
  rw [hopened]
  cases o.commandFirst with
  | false =>
    exact ⟨⟨htimer, hscene, hsrc, hstore, hcues⟩, hcomp, congrArg CommandUnit.intervalCount hcmd, hnoted.congr (by simp) fun _ _ => .rfl⟩
  | true =>
    obtain ⟨htimer', hscene', hsrc', hstore', hcomp', hcues', -⟩ := markInterval_keeps u
    have hdue := markInterval_noted u
    have hcount := markInterval_count u
    rw [hcmd, htimer] at hdue hcount
    exact ⟨⟨htimer'.trans htimer, hscene'.trans hscene, hsrc'.trans hsrc, hstore'.trans hstore, hcues'.trans hcues⟩,
      hcomp'.trans hcomp, hcount, (hnoted.before hdue).congr (by simp) fun _ _ => .rfl⟩

theorem markTimed_spec (s : State) (trackerFirst : Bool) :
    ((s.markTimed trackerFirst).timer = s.timer.marked ∧ (s.markTimed trackerFirst).scene = s.scene ∧
      (s.markTimed trackerFirst).store = s.store ∧ (s.markTimed trackerFirst).comp = s.comp ∧
      (s.markTimed trackerFirst).cues = s.cues) ∧
    (s.markTimed trackerFirst).src = (if trackerFirst = true then s.src.marked else s.src) ∧
    Noted False (fun j m => TimerKinds s.timer j m ∨
      (trackerFirst = true ∧ SourceKinds s.src s.timer.marked.setup.eventMask j m)) s (s.markTimed trackerFirst) := by
  obtain ⟨htimer, hnoted⟩ := markTimer_to s
  obtain ⟨hscene, hsrc, hstore, hcomp, hcues, -⟩ := markTimer_keeps s
  unfold State.markTimed
  cases trackerFirst with
  | false => exact ⟨⟨htimer, hscene, hstore, hcomp, hcues⟩, hsrc, hnoted.congr .rfl fun j m => by simp⟩
  | true =>
    obtain ⟨hsrc', hsources⟩ := markSources_spec s.markTimer
    obtain ⟨htimer', hscene', hstore', hcomp', hcues', -⟩ := markSources_keeps s.markTimer
    rw [htimer, hsrc] at hsources
    rw [hsrc] at hsrc'
    exact ⟨⟨htimer'.trans htimer, hscene'.trans hscene, hstore'.trans hstore, hcomp'.trans hcomp, hcues'.trans hcues⟩, hsrc',
      (hnoted.trans hsources).congr or_self_iff fun j m => by simp⟩

theorem or_last_second (a b c d : Prop) : ((a ∨ b) ∨ c) ∨ d ↔ a ∨ d ∨ b ∨ c := by tauto

theorem markBlocks_spec (s : State) (trackerFirst : Bool) :
    ((s.markBlocks trackerFirst).timer = s.timer.marked ∧ (s.markBlocks trackerFirst).src = s.src.marked ∧
      (s.markBlocks trackerFirst).scene = markedScene s.timer.marked s.scene s.cues ∧
      (s.markBlocks trackerFirst).cues = { s.cues with
        queue := (cuesAtMark s.timer.marked.wallN s.scene s.cues.queue).queue
        strobes := Table.fill 8 false } ∧
      (s.markBlocks trackerFirst).store = s.storeMarked trackerFirst ∧ (s.markBlocks trackerFirst).comp = s.comp) ∧
    Noted False (MarkKinds s trackerFirst) s (s.markBlocks trackerFirst) := by
  obtain ⟨⟨htimerV, hsceneV, hstoreV, hcompV, hcuesV⟩, hsrcV, hnotedV⟩ := markTimed_spec s trackerFirst
  obtain ⟨g, hg⟩ : ∃ g, g = decide (s.timer.marked.setup.geo ≠ s.timer.setup.geo) := ⟨_, rfl⟩
  have hblocks : s.markBlocks trackerFirst =
      let scened := (s.markTimed trackerFirst).markScene g
      let s5 := scened.1.markStore scened.2
      if trackerFirst then s5 else s5.markSources := by
    rw [hg, ← (markTimer_to s).1]
    rfl
  generalize s.markTimed trackerFirst = v at htimerV hsceneV hstoreV hcompV hcuesV hsrcV hnotedV hblocks
  obtain ⟨hsceneW, hcuesW, hhand, hnotedW⟩ := markScene_spec v g
  obtain ⟨htimerW, hsrcW, hstoreW, hcompW, -⟩ := markScene_keeps g v
  rw [htimerV, hsceneV, hcuesV] at hsceneW hhand hnotedW hcuesW
  generalize v.markScene g = scened at hblocks hsceneW hcuesW hhand hnotedW htimerW hsrcW hstoreW hcompW
  obtain ⟨w, hand⟩ := scened
  dsimp only at hblocks hsceneW hcuesW hhand hnotedW htimerW hsrcW hstoreW hcompW
  obtain rfl : hand = s.handMarked := hhand.trans (by rw [hg]; rfl)
  obtain ⟨htimerX, hsceneX, hsrcX, hcompX, hcuesX, -⟩ := markStore_keeps s.handMarked w
  have hstoreX := markStore_store w s.handMarked
  have hnotedX := markStore_noted w s.handMarked
  rw [hsrcW, hsrcV, hstoreW, hstoreV] at hstoreX hnotedX
  rw [htimerW, htimerV] at hnotedX
  have hfirst := (hnotedV.trans hnotedW).trans hnotedX
  generalize w.markStore s.handMarked = x at hblocks hstoreX htimerX hsceneX hsrcX hcompX hcuesX hfirst
  replace htimerX := htimerX.trans (htimerW.trans htimerV)
  replace hsceneX := hsceneX.trans hsceneW
  replace hsrcX := hsrcX.trans (hsrcW.trans hsrcV)
  replace hcompX := hcompX.trans (hcompW.trans hcompV)
  replace hcuesX := hcuesX.trans hcuesW
  rw [hblocks]
  cases trackerFirst with
  | true =>
    refine ⟨⟨htimerX, hsrcX, hsceneX, hcuesX, hstoreX, hcompX⟩, hfirst.congr (by simp) fun j m => ?_⟩
    simp only [MarkKinds, true_and, or_assoc]
    exact Iff.rfl
  | false =>
    obtain ⟨htimerY, hsceneY, hstoreY, hcompY, hcuesY, -⟩ := markSources_keeps x
    obtain ⟨hsrcY, hnotedY⟩ := markSources_spec x
    rw [hsrcX, if_neg (by decide)] at hsrcY hnotedY
    rw [htimerX] at hnotedY
    refine ⟨⟨htimerY.trans htimerX, hsrcY, hsceneY.trans hsceneX, hcuesY.trans hcuesX, hstoreY.trans hstoreX,
      hcompY.trans hcompX⟩, (hfirst.trans hnotedY).congr (by simp) fun j m => ?_⟩
    simp only [MarkKinds, Bool.false_eq_true, false_and, or_false]
    exact or_last_second _ _ _ _

/-! ### The outer blocks -/

theorem stallSource_latched (s : State) (n : Fin 32) : OuterLatched s (s.stallSource n) := by
  simp only [State.stallSource]
  split
  · exact .latch_of_eq _ rfl rfl
  · exact .refl s

theorem loseSource_latched (s : State) (n : Fin 32) : OuterLatched s (s.loseSource n) := by
  simp only [State.loseSource]
  split
  · exact .latch_of_eq _ rfl rfl
  · exact .refl s

theorem markSources_latched (s : State) : OuterLatched s s.markSources :=
  foldl_keeps (P := OuterLatched s) (f := fun acc n => acc.markSource n) (fun u n hu =>
    hu.trans ((OuterLatched.of_eq (t := u.setTrack n (u.src.states.get n).counted) rfl rfl).trans
      ((stallSource_latched _ n).trans (loseSource_latched _ n)))) _ (.refl s)

theorem markCues_latched (s : State) : OuterLatched s s.markCues.1 := by
  simp only [State.markCues]
  split
  · exact .latch_of_eq _ rfl rfl
  · exact .of_eq rfl rfl

theorem markCommit_latched (s : State) : OuterLatched s s.markCommit.1 := by
  unfold State.markCommit
  split
  · exact .latch_of_eq _ rfl rfl
  · exact .refl s

theorem markScene_latched (s : State) (g : Bool) : OuterLatched s (s.markScene g).1 := by
  simp only [State.markScene]
  have hcued := markCues_latched s
  generalize s.markCues = cued at hcued ⊢
  have hacted : OuterLatched s (cued.1.markTriggers cued.2).1 := hcued.trans (.of_eq rfl rfl)
  generalize cued.1.markTriggers cued.2 = acted at hacted ⊢
  have hdone := hacted.trans (markCommit_latched acted.1)
  generalize acted.1.markCommit = done at hdone ⊢
  exact hdone.trans (.of_eq rfl rfl)

theorem markStore_latched (s : State) (h : HandOver) : OuterLatched s (s.markStore h) := by
  simp only [State.markStore]
  split
  · exact .latch_of_eq _ rfl rfl
  · exact .of_eq rfl rfl

theorem markBlocks_latched (s : State) (trackerFirst : Bool) : OuterLatched s (s.markBlocks trackerFirst) := by
  have htimed : OuterLatched s (s.markTimed trackerFirst) := by
    unfold State.markTimed
    split
    · exact (markTimer_outer s).trans (markSources_latched _)
    · exact markTimer_outer s
  have hstored := (htimed.trans (markScene_latched _ (decide (s.markTimer.timer.setup.geo ≠ s.timer.setup.geo)))).trans
    (markStore_latched _ ((s.markTimed trackerFirst).markScene (decide (s.markTimer.timer.setup.geo ≠ s.timer.setup.geo))).2)
  simp only [State.markBlocks]
  split
  · exact hstored
  · exact hstored.trans (markSources_latched _)

theorem markClosed_spec (s : State) (o : MarkOrder) :
    ((s.markClosed o).timer = s.timer ∧ (s.markClosed o).scene = s.scene ∧ (s.markClosed o).src = s.src ∧
      (s.markClosed o).store = s.store ∧ (s.markClosed o).cues = s.cues) ∧
    (s.markClosed o).comp = (if o.compositorFirst = true then s.comp else s.comp.takeGate s.timer.gate s.timer.setup.backlight) ∧
    (s.markClosed o).cmd.intervalCount = (if o.commandFirst = true then s.cmd.intervalCount
      else if s.timer.setup.statusInterval ≤ s.cmd.intervalCount + 1 then 0 else s.cmd.intervalCount + 1) ∧
    Noted (o.commandFirst = false ∧ s.timer.setup.statusInterval ≤ s.cmd.intervalCount + 1) NoKind s (s.markClosed o) ∧
    (o.commandFirst = false → s.timer.setup.statusInterval ≤ s.cmd.intervalCount + 1 →
      (s.markClosed o).ring.slot = some (statusBody (s.markClosed o))) := by
  obtain ⟨u, hu⟩ : ∃ u, u = if o.compositorFirst then s else s.markCompositor := ⟨_, rfl⟩
  have hclosed : s.markClosed o = if o.commandFirst then u else u.markInterval := by rw [hu]; rfl
  have hkept : u.cmd = s.cmd ∧ u.timer = s.timer ∧ u.scene = s.scene ∧ u.src = s.src ∧ u.store = s.store ∧ u.cues = s.cues := by
    rw [hu]
    split <;> exact ⟨rfl, rfl, rfl, rfl, rfl, rfl⟩
  have hcomp : u.comp = if o.compositorFirst = true then s.comp else s.comp.takeGate s.timer.gate s.timer.setup.backlight := by
    rw [hu]
    split <;> rfl
  have hnoted : Noted False NoKind s u := by
    rw [hu]
    split
    · exact .refl s
    · exact markCompositor_noted s
  clear hu
  obtain ⟨hcmd, htimer, hscene, hsrc, hstore, hcues⟩ := hkept
  rw [hclosed]
  cases o.commandFirst with
  | true =>
    exact ⟨⟨htimer, hscene, hsrc, hstore, hcues⟩, hcomp, congrArg CommandUnit.intervalCount hcmd,
      hnoted.congr (by simp) fun _ _ => .rfl, fun h => absurd h (by decide)⟩
  | false =>
    obtain ⟨htimer', hscene', hsrc', hstore', hcomp', hcues', -⟩ := markInterval_keeps u
    have hdue := markInterval_noted u
    have hcount := markInterval_count u
    have hslot := markInterval_slot (s := u)
    rw [hcmd, htimer] at hdue hcount hslot
    exact ⟨⟨htimer'.trans htimer, hscene'.trans hscene, hsrc'.trans hsrc, hstore'.trans hstore, hcues'.trans hcues⟩,
      hcomp'.trans hcomp, hcount, (hnoted.before hdue).congr (by simp) fun _ _ => .rfl, fun _ => hslot⟩

theorem frameMark_marked (s : State) (o : MarkOrder) : Marked s o (s.frameMark o) := by
  rw [frameMark_eq]
  obtain ⟨⟨htimer, hscene, hsrc, hstore, hcues⟩, hcomp, hcount, hnoted⟩ := markOpened_spec s o
  generalize s.markOpened o = u at htimer hscene hsrc hstore hcues hcomp hcount hnoted ⊢
  obtain ⟨⟨htimerV, hsrcV, hsceneV, hcuesV, hstoreV, hcompV⟩, hnotedV⟩ := markBlocks_spec u o.trackerFirst
  obtain ⟨-, -, -, hcountV⟩ := markBlocks_latched u o.trackerFirst
  have hstore' : u.storeMarked o.trackerFirst = s.storeMarked o.trackerFirst := by
    simp only [State.storeMarked, State.handMarked, htimer, hscene, hsrc, hstore, hcues]
  have hkinds : MarkKinds u o.trackerFirst = MarkKinds s o.trackerFirst := by
    unfold MarkKinds
    rw [hstore']
    simp only [State.handMarked, htimer, hscene, hsrc, hcues]
  rw [htimer] at htimerV
  rw [hsrc] at hsrcV
  rw [htimer, hscene, hcues] at hsceneV hcuesV
  rw [hstore'] at hstoreV
  rw [hcomp] at hcompV
  rw [hkinds] at hnotedV
  rw [hcount] at hcountV
  have hall := hnoted.trans hnotedV
  generalize u.markBlocks o.trackerFirst = v at htimerV hsrcV hsceneV hcuesV hstoreV hcompV hnotedV hcountV hall ⊢
  obtain ⟨⟨htimerW, hsceneW, hsrcW, hstoreW, hcuesW⟩, hcompW, hcountW, hnotedW, hslotW⟩ := markClosed_spec v o
  have hend := hall.trans hnotedW
  rw [htimerV, hcompV] at hcompW
  rw [htimerV, hcountV] at hcountW hend hslotW
  generalize v.markClosed o = w at htimerW hsceneW hsrcW hstoreW hcuesW hcompW hcountW hslotW hend ⊢
  refine ⟨htimerW.trans htimerV, hsrcW.trans hsrcV, hsceneW.trans hsceneV, hcuesW.trans hcuesV, hstoreW.trans hstoreV, ?_, ?_,
    hend.congr ?_ fun j m => by simp [NoKind], fun hlast hdue => hslotW hlast (by rw [hlast]; exact hdue)⟩
  · rw [hcompW]
    cases o.compositorFirst <;> rfl
  · rw [hcountW]
    cases o.commandFirst <;> rfl
  · cases o.commandFirst <;> simp

end Sys2Proof.Machine
end

section
/-! The kinds that a frame mark latches, by Table 10-3 (R164, R165), and the Source Tracker and the Frame Timer at the mark. -/

namespace Sys2Proof.Machine

/-! ### A source's track at a mark (R57, R58) -/

theorem Tracker.marked_get (t : Tracker) (n : Fin 32) :
    t.marked.states.get n = (t.states.get n).marked (t.records.get n) := Table.get_ofFn _ n

theorem SourceTrack.stallChecked_eq (t : SourceTrack) (r : SourceRec) : t.stallChecked r = { t with
    state := if (t.state = .waiting ∨ t.state = .live) ∧ r.stallLimit ≤ t.sinceStart then .stalled else t.state } := by
  unfold SourceTrack.stallChecked
  by_cases h : t.stalls r = true
  · rw [if_pos h, if_pos ((SourceTrack.stalls_iff t r).mp h)]
  · rw [if_neg h, if_neg fun hs => h ((SourceTrack.stalls_iff t r).mpr hs)]

theorem SourceTrack.lossChecked_eq (t : SourceTrack) (r : SourceRec) : t.lossChecked r = { t with
    state := if (t.state = .waiting ∨ t.state = .live ∨ t.state = .stalled) ∧ r.lossLimit ≤ t.sinceStart then .lost
      else t.state } := by
  unfold SourceTrack.lossChecked
  by_cases h : t.loses r = true
  · rw [if_pos h, if_pos ((SourceTrack.loses_iff t r).mp h)]
  · rw [if_neg h, if_neg fun hs => h ((SourceTrack.loses_iff t r).mpr hs)]

/-- R57: a source's frames since its last start after the mark. -/
def SourceTrack.sinceMarked (t : SourceTrack) : Nat := if t.state = .off then t.sinceStart else min 65535 (t.sinceStart + 1)

/-- R57: a source's state after the mark. -/
def SourceTrack.stateMarked (t : SourceTrack) (r : SourceRec) : SourceState :=
  if t.state = .off ∨ t.state = .lost then t.state
  else if r.lossLimit ≤ t.sinceMarked then .lost
  else if t.state = .stalled ∨ r.stallLimit ≤ t.sinceMarked then .stalled
  else t.state

theorem SourceTrack.marked_eq (t : SourceTrack) (r : SourceRec) : t.marked r = { t with
    sinceStart := t.sinceMarked
    state := t.stateMarked r
    lastStarts := t.startsAtMark
    runningStarts := 0 } := by
  have hcounted : t.counted = { t with sinceStart := t.sinceMarked, lastStarts := t.startsAtMark, runningStarts := 0 } := rfl
  rw [SourceTrack.marked, SourceTrack.lossChecked_eq, SourceTrack.stallChecked_eq, hcounted]
  dsimp only
  congr 1
  unfold SourceTrack.stateMarked
  by_cases hloss : r.lossLimit ≤ t.sinceMarked <;> by_cases hstall : r.stallLimit ≤ t.sinceMarked <;>
    cases t.state <;> simp [hloss, hstall]

theorem SourceTrack.counted_stalls_iff (t : SourceTrack) (r : SourceRec) : t.counted.stalls r = true ↔
    ((t.state = .waiting ∨ t.state = .live) ∧ r.stallLimit ≤ (t.marked r).sinceStart) := by
  rw [SourceTrack.stalls_iff, SourceTrack.marked_eq]
  rfl

theorem SourceTrack.counted_loses_iff (t : SourceTrack) (r : SourceRec) : (t.counted.stallChecked r).loses r = true ↔
    (t.state ≠ .lost ∧ (t.marked r).state = .lost) := by
  rw [SourceTrack.marked, SourceTrack.lossChecked]
  have hnot : t.state ≠ .lost → (t.counted.stallChecked r).state ≠ .lost := fun h => by
    rw [SourceTrack.stallChecked_eq]
    dsimp only
    split
    · decide
    · exact h
  have hlost : t.state = .lost → (t.counted.stallChecked r).loses r = false := fun h => by
    rw [Bool.eq_false_iff, ne_eq, SourceTrack.loses_iff, SourceTrack.stallChecked_eq]
    have hs : t.counted.state = .lost := h
    simp [hs]
  split
  next h =>
    refine ⟨fun _ => ⟨fun heq => ?_, rfl⟩, fun _ => h⟩
    rw [hlost heq] at h
    exact absurd h (by decide)
  next h => exact ⟨fun h' => absurd h' h, fun ⟨hne, heq⟩ => absurd heq (hnot hne)⟩

/-! ### The kinds of a mark (Table 10-3) -/

/-- R119: a missed frame leaves no lock. -/
theorem Timer.lockMissed_ne_locked {t : Timer} (h : t.syncNoted = false) : t.lockMissed ≠ .locked := by
  unfold Timer.lockMissed
  rw [if_neg (by rw [h]; decide)]
  split
  · decide
  · split <;> decide
  · decide
  · split <;> decide

theorem Timer.lockMissed_of_noted {t : Timer} (h : t.syncNoted = true) : t.lockMissed = t.lock := if_pos h

theorem Timer.marked_setup (t : Timer) : t.marked.setup = t.nextSetup := rfl

theorem Timer.marked_lock (t : Timer) : t.marked.lock =
    if t.lockMissed = .locked ∧ t.Retimed then .acquire else t.lockMissed := rfl

/-- R119, R124: the two ways that a mark changes the lock state: a missed frame, judged by the old mask, and a setup latch that
retimes, judged by the new one. -/
theorem Timer.lockKinds_iff (t : Timer) (j : EventKind) (m : BitVec 12) :
    (OneKind (t.lockMissed ≠ t.lock) .lockChange t.setup.eventMask j m ∨
      OneKind (t.lockMissed = .locked ∧ t.Retimed) .lockChange t.nextSetup.eventMask j m) ↔
    (t.marked.lock ≠ t.lock ∧ j = .lockChange ∧
      m = if t.syncNoted = false then t.setup.eventMask else t.nextSetup.eventMask) := by
  simp only [OneKind]
  cases hnoted : t.syncNoted with
  | false =>
    have hne := Timer.lockMissed_ne_locked hnoted
    simp [Timer.marked_lock, hne]
  | true =>
    rw [Timer.marked_lock, Timer.lockMissed_of_noted hnoted]
    by_cases h : t.lock = .locked ∧ t.Retimed
    · simp [h]
    · simp [h]

theorem timerKinds_iff (t : Timer) (j : EventKind) (m : BitVec 12) : TimerKinds t j m ↔
    ((t.marked.lock ≠ t.lock ∧ j = .lockChange ∧
      m = if t.syncNoted = false then t.setup.eventMask else t.nextSetup.eventMask) ∨
    OneKind (t.pendSetup ≠ none) .setupTaken t.nextSetup.eventMask j m ∨
    OneKind (t.marked.gate ≠ t.gate) .gateOpen t.nextSetup.eventMask j m) := by
  rw [← Timer.lockKinds_iff, or_assoc]
  rfl

/-- R164: an allocation at the mark leaves a window degraded. -/
def ShortAtMark (s t : State) : Prop := s.handMarked.allocates = true ∧ 1 ≤ t.store.degraded

/-- R131: a cue of the queue is late at the mark. -/
def LateAtMark (s : State) : Prop := s.cues.queue.any (isLate s.timer.marked.wallN) = true

/-- R10: the mark takes a commit. -/
def CommitAtMark (s : State) : Prop := (unitsAtMark s.timer.marked s.scene s.cues).scene.commitPending = true

/-- Table 10-3: the kinds of the mark are those of its cases, each with the mask in force. -/
theorem markKinds_iff {s t : State} {o : MarkOrder} (h : Marked s o t) (j : EventKind) (m : BitVec 12) :
    MarkKinds s o.trackerFirst j m ↔
      (MarkLatches s t (LateAtMark s) (CommitAtMark s) (ShortAtMark s t) j ∧ m = markMask s t j) := by
  have hstalled : (∃ n ∈ indices 32, (s.src.states.get n).counted.stalls (s.src.records.get n) = true) ↔
      ∃ n, ((s.src.states.get n).state = .waiting ∨ (s.src.states.get n).state = .live) ∧
        (s.src.records.get n).stallLimit ≤ (t.src.states.get n).sinceStart := by
    simp only [mem_indices, true_and, SourceTrack.counted_stalls_iff, h.src, Tracker.marked_get]
  have hlost : (∃ n ∈ indices 32, ((s.src.states.get n).counted.stallChecked (s.src.records.get n)).loses
      (s.src.records.get n) = true) ↔
      ∃ n, (s.src.states.get n).state ≠ .lost ∧ (t.src.states.get n).state = .lost := by
    simp only [mem_indices, true_and, SourceTrack.counted_loses_iff, h.src, Tracker.marked_get]
  rw [MarkKinds, timerKinds_iff, SourceKinds, SourceKindsOf, SceneKinds, hstalled, hlost, ← h.store]
  simp only [OneKind]
  cases j <;> simp [MarkLatches, markMask, LateAtMark, CommitAtMark, ShortAtMark, h.timer, Timer.marked_setup]

/-- R164, R165: what the mark latches and when it builds a STATUS cell. -/
theorem Marked.latches {s t : State} {o : MarkOrder} (h : Marked s o t) : Noted (IntervalDue o s t) (fun j m =>
    MarkLatches s t (LateAtMark s) (CommitAtMark s) (ShortAtMark s t) j ∧ m = markMask s t j) s t := by
  refine h.noted.congr ?_ (markKinds_iff h)
  unfold IntervalDue
  cases o.commandFirst with
  | true => exact Iff.rfl
  | false =>
    rw [if_neg (by decide), if_neg (by decide), h.timer]

theorem Marked.kinds_iff {s t : State} {o : MarkOrder} (h : Marked s o t) (k : EventKind) :
    kindIn t.cmd.attention k = true ↔
      (kindIn s.cmd.attention k = true ∨ MarkLatches s t (LateAtMark s) (CommitAtMark s) (ShortAtMark s t) k) := by
  rw [h.latches.kinds]
  simp

theorem Marked.status {s t : State} {o : MarkOrder} (h : Marked s o t)
    (hbuilt : IntervalDue o s t ∨ ∃ k, MarkLatches s t (LateAtMark s) (CommitAtMark s) (ShortAtMark s t) k ∧
      kindIn (markMask s t k) k = true) : StatusBuilt t := by
  refine h.latches.status (hbuilt.imp_right ?_)
  rintro ⟨k, hk, hmask⟩
  exact ⟨k, _, ⟨hk, rfl⟩, hmask⟩

theorem Marked.slot_kept {s t : State} {o : MarkOrder} (h : Marked s o t) (hdue : ¬IntervalDue o s t)
    (hnone : ∀ k, MarkLatches s t (LateAtMark s) (CommitAtMark s) (ShortAtMark s t) k → kindIn (markMask s t k) k = false) :
    t.ring.slot = s.ring.slot := by
  refine h.latches.slot hdue ?_
  rintro k m ⟨hk, rfl⟩
  exact hnone k hk

/-- R114: a FRAME_MARK at the end of a frame. -/
theorem exec_frameMark_of_end {s : State} (o : MarkOrder) (hrun : s.ring.phase = .running)
    (hzero : s.timer.lineZeroDue = false) (hend : s.timer.frameLen ≤ s.timer.lineCount + 1) :
    exec (.frameMark o) s = .next (s.frameMark o) := by
  rcases exec_frameMark_cases o s with ⟨-, he⟩ | ⟨hm, -⟩
  · exact he
  · exact absurd (hm.symm.trans ((marksNext_iff s).mpr ⟨hrun, hzero, hend⟩)) (by decide)

/-! ### The Source Tracker (R57, R58) -/

theorem exec_stallLimit (s : State) (n : Fin 32) :
    exec (.stallLimit n) s = .next (s.whenRunning fun t => t.stallSource n) := rfl

theorem exec_lossLimit (s : State) (n : Fin 32) :
    exec (.lossLimit n) s = .next (s.whenRunning fun t => t.loseSource n) := rfl

/-- R57, R164: a source that enters a state with its event latched: the rest of the tile is as before. -/
theorem latch_setTrack_spec (s : State) (n : Fin 32) (k : SourceTrack) (e : EventKind) :
    Latched e s (latch e (s.setTrack n k)) ∧ RingKeptButSlot s (latch e (s.setTrack n k)) ∧
    (latch e (s.setTrack n k)).src = { s.src with states := s.src.states.set n k } ∧
    (latch e (s.setTrack n k)).timer = s.timer ∧ (latch e (s.setTrack n k)).scene = s.scene ∧
    StoreKept s (latch e (s.setTrack n k)) ∧ (latch e (s.setTrack n k)).comp = s.comp ∧
    (latch e (s.setTrack n k)).cues = s.cues := by
  obtain ⟨htimer, hscene, hsrc, hstore, hcomp, hcues, -⟩ := latch_keeps e (s.setTrack n k)
  have hlatched : Latched e (s.setTrack n k) (latch e (s.setTrack n k)) := latched_latch e _
  have hring : OuterLatched s (latch e (s.setTrack n k)) := .latch_of_eq e rfl rfl
  exact ⟨hlatched, hring.1, hsrc, htimer, hscene, ⟨hstore, fun a => by rw [hstore]; rfl⟩, hcomp, hcues⟩

/-- R58: an OFF source's starts become 0 or their count; every other source's are counted. -/
theorem SourceTrack.startsAtMark_spec (t : SourceTrack) : (t.state ≠ .off → t.startsAtMark = t.runningStarts) ∧
    (t.state = .off → t.startsAtMark = 0 ∨ t.startsAtMark = t.runningStarts) := by
  rcases t.startsAtMark_cases with h | ⟨hoff, -, h⟩
  · exact ⟨fun _ => h, fun _ => .inr h⟩
  · exact ⟨fun hne => absurd hoff hne, fun _ => .inl h⟩

/-- Settles O38: the tracks by `SourceTrack.marked_eq`, the kinds by `Marked.kinds_iff`, the limits by their equations. -/
theorem sourcesAtMarkAndLimits : Obligations.SourcesAtMarkAndLimits := by
  unfold Obligations.SourcesAtMarkAndLimits
  refine ⟨fun s o hrun hzero hend => ?_, fun s n hrun hstate hlimit => ?_, fun s n h => ?_, fun s n hrun hstate hlimit => ?_,
    fun s n h => ?_⟩
  · have hmarked := frameMark_marked s o
    refine ⟨_, exec_frameMark_of_end o hrun hzero hend, by rw [hmarked.src]; rfl, hmarked.kinds_iff .sourceStalled,
      hmarked.kinds_iff .sourceLost, fun k hk hlatched hmask => hmarked.status (.inr ⟨k, ?_, ?_⟩), fun n => ?_⟩
    · rcases hk with rfl | rfl <;> exact hlatched
    · rcases hk with rfl | rfl <;> exact hmask
    · have hget : (s.frameMark o).src.states.get n = _ :=
        (congrArg (fun k : Tracker => k.states.get n) hmarked.src).trans
          ((Tracker.marked_get s.src n).trans (SourceTrack.marked_eq _ _))
      obtain ⟨hcounted, hoff⟩ := (s.src.states.get n).startsAtMark_spec
      exact ⟨s.src.states.get n, _, s.src.records.get n, rfl, hget.symm, rfl, rfl, rfl, hcounted, hoff, rfl⟩
  · have hstalls := (SourceTrack.stalls_iff _ _).mpr ⟨hstate, hlimit⟩
    refine ⟨_, ?_, latch_setTrack_spec s n { s.src.states.get n with state := .stalled } .sourceStalled⟩
    rw [exec_stallLimit, whenRunning_running hrun, stallSource_of_stalls hstalls]
  · rw [exec_stallLimit]
    refine congrArg Host.Outcome.next (whenRunning_idle fun hrun => stallSource_of_not ?_)
    rw [Bool.eq_false_iff, ne_eq, SourceTrack.stalls_iff]
    rintro ⟨hstate, hlimit⟩
    rcases h with h | ⟨hwaiting, hlive⟩ | h
    · exact h hrun
    · exact hstate.elim hwaiting hlive
    · omega
  · have hloses := (SourceTrack.loses_iff _ _).mpr ⟨hstate, hlimit⟩
    refine ⟨_, ?_, latch_setTrack_spec s n { s.src.states.get n with state := .lost } .sourceLost⟩
    rw [exec_lossLimit, whenRunning_running hrun, loseSource_of_loses hloses]
  · rw [exec_lossLimit]
    refine congrArg Host.Outcome.next (whenRunning_idle fun hrun => loseSource_of_not ?_)
    rw [Bool.eq_false_iff, ne_eq, SourceTrack.loses_iff]
    rintro ⟨hstate, hlimit⟩
    rcases h with h | h | h | h
    · exact h hrun
    · simp [h] at hstate
    · simp [h] at hstate
    · omega

end Sys2Proof.Machine
end

section
/-! What the actions of cues and trigger units keep of a scene (R131, R137), and the frame mark's work on the scene: the
obligations FrameMarkTimer and FrameMarkScene. -/

namespace Sys2Proof.Machine

/-! ### Actions (R131, R137) -/

/-- What an action of a cue or a trigger unit keeps of a scene. -/
structure ActKept (a b : Scene) : Prop where
  presets : b.presets = a.presets
  enabled : ∀ n, (b.active.get n).enabled = (a.active.get n).enabled
  clears : ∀ n, (b.wins.get n).blankClear = (a.wins.get n).blankClear ∧
    (b.wins.get n).highlightClear = (a.wins.get n).highlightClear
  disabled : ∀ n, (a.active.get n).enabled = false → b.wins.get n = a.wins.get n
  pending : a.commitPending = true → b.commitPending = true

theorem ActKept.refl (a : Scene) : ActKept a a := ⟨rfl, fun _ => rfl, fun _ => ⟨rfl, rfl⟩, fun _ _ => rfl, id⟩

theorem ActKept.trans {a b c : Scene} (h : ActKept a b) (k : ActKept b c) : ActKept a c where
  presets := k.presets.trans h.presets
  enabled n := (k.enabled n).trans (h.enabled n)
  clears n := ⟨(k.clears n).1.trans (h.clears n).1, (k.clears n).2.trans (h.clears n).2⟩
  disabled n hn := (k.disabled n ((h.enabled n).trans hn)).trans (h.disabled n hn)
  pending hp := k.pending (h.pending hp)

/-- The active windows and their states are as before. -/
theorem ActKept.of_wins {a b : Scene} (hpresets : b.presets = a.presets) (hactive : b.active = a.active) (hwins : b.wins = a.wins)
    (hpending : a.commitPending = true → b.commitPending = true) : ActKept a b :=
  ⟨hpresets, fun _ => by rw [hactive], fun _ => by rw [hwins]; exact ⟨rfl, rfl⟩, fun _ _ => by rw [hwins], hpending⟩

theorem recall_kept (s : Scene) (p : Fin 4) : ActKept s (s.recall p) := by
  unfold Scene.recall
  split
  · exact .of_wins rfl rfl rfl fun _ => rfl
  · exact .refl s

theorem raise_kept (s : Scene) (n : Fin 32) : ActKept s (s.raise n) := .of_wins rfl rfl rfl id

theorem setSource_kept (s : Scene) (n src : Fin 32) : ActKept s (s.setSource n src) := by
  refine ⟨rfl, fun m => ?_, fun _ => ⟨rfl, rfl⟩, fun _ _ => rfl, id⟩
  simp only [Scene.setSource, Table.get_modify]
  split <;> rfl

/-- R12: a request to an enabled window changes one of its two states. -/
theorem requestBlank_kept (s : Scene) (n : Fin 32) (q : AlarmRequest) : ActKept s (s.requestBlank n q) ∧
    ∀ m, ((s.requestBlank n q).wins.get m).highlight = (s.wins.get m).highlight := by
  unfold Scene.requestBlank
  split
  next henabled =>
    refine ⟨⟨rfl, fun _ => rfl, fun m => ?_, fun m hm => ?_, id⟩, fun m => ?_⟩
    · dsimp only
      rw [Table.get_modify]
      split <;> exact ⟨rfl, rfl⟩
    · refine (Table.get_modify _ _ _ _).trans (if_neg fun h => ?_)
      rw [h, henabled] at hm
      exact absurd hm (by decide)
    · dsimp only
      rw [Table.get_modify]
      split <;> rfl
  next => exact ⟨.refl s, fun _ => rfl⟩

theorem requestHighlight_kept (s : Scene) (n : Fin 32) (q : AlarmRequest) : ActKept s (s.requestHighlight n q) ∧
    ∀ m, ((s.requestHighlight n q).wins.get m).blank = (s.wins.get m).blank := by
  unfold Scene.requestHighlight
  split
  next henabled =>
    refine ⟨⟨rfl, fun _ => rfl, fun m => ?_, fun m hm => ?_, id⟩, fun m => ?_⟩
    · dsimp only
      rw [Table.get_modify]
      split <;> exact ⟨rfl, rfl⟩
    · refine (Table.get_modify _ _ _ _).trans (if_neg fun h => ?_)
      rw [h, henabled] at hm
      exact absurd hm (by decide)
    · dsimp only
      rw [Table.get_modify]
      split <;> rfl
  next => exact ⟨.refl s, fun _ => rfl⟩

theorem recall_wins (s : Scene) (p : Fin 4) : (s.recall p).wins = s.wins := by
  unfold Scene.recall
  split <;> rfl

/-- What an action leaves of the alarm states: each is changed by its own action alone. -/
structure AlarmKept (a b : Scene) (x : Action) : Prop where
  kept : ActKept a b
  blank : x ≠ .blank → ∀ n, (b.wins.get n).blank = (a.wins.get n).blank
  highlight : x ≠ .highlight → ∀ n, (b.wins.get n).highlight = (a.wins.get n).highlight

theorem AlarmKept.of_wins {a b : Scene} {x : Action} (h : ActKept a b) (hwins : b.wins = a.wins) : AlarmKept a b x :=
  ⟨h, fun _ _ => by rw [hwins], fun _ _ => by rw [hwins]⟩

theorem act_kept (k : SceneWork) (a : Action) (window param : Byte) : AlarmKept k.scene (k.act a window param).scene a := by
  match a with
  | .commit => exact .of_wins (.of_wins rfl rfl rfl fun _ => rfl) rfl
  | .recall => exact .of_wins (recall_kept _ _) (recall_wins _ _)
  | .source => exact .of_wins (setSource_kept _ _ _) rfl
  | .raise => exact .of_wins (raise_kept _ _) rfl
  | .blank => exact ⟨(requestBlank_kept _ _ _).1, fun h => absurd rfl h, fun _ => (requestBlank_kept _ _ _).2⟩
  | .highlight => exact ⟨(requestHighlight_kept _ _ _).1, fun _ => (requestHighlight_kept _ _ _).2, fun h => absurd rfl h⟩

theorem actLevel_kept (k : SceneWork) (c : Bool) (a : Action) (window param : Byte) :
    AlarmKept k.scene (k.actLevel c a window param).scene a := by
  match a with
  | .commit => exact .of_wins (.refl _) rfl
  | .recall => exact .of_wins (.refl _) rfl
  | .blank => exact ⟨(requestBlank_kept _ _ _).1, fun h => absurd rfl h, fun _ => (requestBlank_kept _ _ _).2⟩
  | .highlight => exact ⟨(requestHighlight_kept _ _ _).1, fun _ => (requestHighlight_kept _ _ _).2, fun h => absurd rfl h⟩
  | .source =>
    cases c
    · exact .of_wins (.refl _) rfl
    · exact act_kept k .source window param
  | .raise =>
    cases c
    · exact .of_wins (.refl _) rfl
    · exact act_kept k .raise window param

theorem unitActs_kept (k : SceneWork) (t : Trigger) (strobe : Bool) (prev cur : BitVec 32) :
    AlarmKept k.scene (k.unitActs t strobe prev cur).scene t.action := by
  rcases unitActs_cases k t strobe prev cur with h | h | ⟨c, h⟩ <;> rw [h]
  · exact .of_wins (.refl _) rfl
  · exact act_kept _ _ _ _
  · exact actLevel_kept _ _ _ _ _

/-- R138: what the trigger units together keep. -/
theorem unitsAct_kept (k : SceneWork) (u : CueUnit) (prev cur : BitVec 32) :
    ActKept k.scene (k.unitsAct u prev cur).scene ∧
    ((∀ i, (u.triggers.get i).action ≠ .blank) →
      ∀ n, ((k.unitsAct u prev cur).scene.wins.get n).blank = (k.scene.wins.get n).blank) ∧
    ((∀ i, (u.triggers.get i).action ≠ .highlight) →
      ∀ n, ((k.unitsAct u prev cur).scene.wins.get n).highlight = (k.scene.wins.get n).highlight) := by
  unfold SceneWork.unitsAct
  induction indices 8 generalizing k with
  | nil => exact ⟨.refl _, fun _ _ => rfl, fun _ _ => rfl⟩
  | cons i l ih =>
    obtain ⟨hkept, hblank, hhighlight⟩ := unitActs_kept k (u.triggers.get i) (u.strobes.get i) prev cur
    obtain ⟨hkept', hblank', hhighlight'⟩ := ih (k.unitActs (u.triggers.get i) (u.strobes.get i) prev cur)
    exact ⟨hkept.trans hkept', fun h n => (hblank' h n).trans (hblank (h i) n),
      fun h n => (hhighlight' h n).trans (hhighlight (h i) n)⟩

theorem expire_kept (n : BitVec 32) (fuel : Nat) (k : CueWork) :
    ActKept k.work.scene (CueWork.expire n fuel k).work.scene := by
  induction fuel generalizing k with
  | zero => exact .refl _
  | succ fuel ih =>
    have hone : ActKept k.work.scene (k.expireOne n).work.scene := by
      unfold CueWork.expireOne
      split
      · exact .refl _
      · exact (act_kept _ _ _ _).kept
    exact hone.trans (ih _)

/-! ### The scene through the mark (R22) -/

theorem takeClears_get (s : Scene) (n : Fin 32) :
    s.takeClears.wins.get n = (s.wins.get n).takeClears (s.active.get n).enabled := Table.get_ofFn _ n

/-- R131: the due cues keep what actions keep. -/
theorem cuesAtMark_kept (n : BitVec 32) (a : Scene) (q : List Cue) : ActKept a (cuesAtMark n a q).work.scene :=
  expire_kept n q.length ⟨⟨a, []⟩, q⟩

/-- The scene as the trigger units find it: after the cues and the pending clears. -/
def clearedAtMark (t : Timer) (a : Scene) (u : CueUnit) : Scene := (cuesAtMark t.wallN a u.queue).work.scene.takeClears

theorem unitsAtMark_kept (t : Timer) (a : Scene) (u : CueUnit) :
    ActKept (clearedAtMark t a u) (unitsAtMark t a u).scene ∧
    ((∀ i, (u.triggers.get i).action ≠ .blank) →
      ∀ n, ((unitsAtMark t a u).scene.wins.get n).blank = ((clearedAtMark t a u).wins.get n).blank) ∧
    ((∀ i, (u.triggers.get i).action ≠ .highlight) →
      ∀ n, ((unitsAtMark t a u).scene.wins.get n).highlight = ((clearedAtMark t a u).wins.get n).highlight) :=
  unitsAct_kept ⟨clearedAtMark t a u, (cuesAtMark t.wallN a u.queue).work.switched⟩ u t.prevFlags t.curFlags

theorem clearedAtMark_get (t : Timer) (a : Scene) (u : CueUnit) (n : Fin 32) : (clearedAtMark t a u).wins.get n =
    ((cuesAtMark t.wallN a u.queue).work.scene.wins.get n).takeClears (a.active.get n).enabled := by
  rw [clearedAtMark, takeClears_get, (cuesAtMark_kept t.wallN a u.queue).enabled]

theorem unitsAtMark_presets (t : Timer) (a : Scene) (u : CueUnit) : (unitsAtMark t a u).scene.presets = a.presets :=
  (unitsAtMark_kept t a u).1.presets.trans (cuesAtMark_kept t.wallN a u.queue).presets

theorem unitsAtMark_enabled (t : Timer) (a : Scene) (u : CueUnit) (n : Fin 32) :
    ((unitsAtMark t a u).scene.active.get n).enabled = (a.active.get n).enabled :=
  ((unitsAtMark_kept t a u).1.enabled n).trans ((cuesAtMark_kept t.wallN a u.queue).enabled n)

theorem unitsAtMark_pending {t : Timer} {a : Scene} {u : CueUnit} (h : a.commitPending = true) :
    (unitsAtMark t a u).scene.commitPending = true :=
  (unitsAtMark_kept t a u).1.pending ((cuesAtMark_kept t.wallN a u.queue).pending h)

/-- R20: the tour steps, window by window. -/
theorem tourSteps_get (s : Scene) (n : BitVec 32) (k : Fin 32) :
    (s.tourSteps n).wins.get k = (s.wins.get k).toured (s.active.get k) n := by
  have hfold : ∀ (l : List (Fin 32)), l.Nodup → ∀ u : Scene, u.active = s.active →
      (l.foldl (fun acc k => acc.tourStep k n) u).wins.get k =
        if k ∈ l then (u.wins.get k).toured (s.active.get k) n else u.wins.get k := fun l hl => by
    induction l with
    | nil => exact fun u _ => rfl
    | cons i l ih =>
      intro u hu
      obtain ⟨hi, hl⟩ := List.nodup_cons.mp hl
      refine (ih hl (u.tourStep i n) hu).trans ?_
      simp only [Scene.tourStep, Table.get_set, hu]
      by_cases hk : k = i
      · subst hk
        simp [hi]
      · simp [hk]
  exact (hfold _ (indices_nodup 32) s rfl).trans (if_pos (mem_indices k))

theorem toured_keeps (w : WinState) (r : WinRec) (n : BitVec 32) : (w.toured r n).blank = w.blank ∧
    (w.toured r n).highlight = w.highlight ∧ (w.toured r n).blankClear = w.blankClear ∧
    (w.toured r n).highlightClear = w.highlightClear := by
  unfold WinState.toured
  split <;> exact ⟨rfl, rfl, rfl, rfl⟩

/-- R10: the windows' states after the commit: a window disabled by it is cleared, and otherwise its alarm states are kept. -/
theorem committedAtMark_wins (t : Timer) (a : Scene) (u : CueUnit) (n : Fin 32) :
    ((committedAtMark t a u).wins.get n = WinState.cleared ∧ (a.active.get n).enabled = true) ∨
    (((committedAtMark t a u).wins.get n).blank = ((unitsAtMark t a u).scene.wins.get n).blank ∧
      ((committedAtMark t a u).wins.get n).highlight = ((unitsAtMark t a u).scene.wins.get n).highlight ∧
      ((committedAtMark t a u).wins.get n).blankClear = ((unitsAtMark t a u).scene.wins.get n).blankClear ∧
      ((committedAtMark t a u).wins.get n).highlightClear = ((unitsAtMark t a u).scene.wins.get n).highlightClear) := by
  have henabled := unitsAtMark_enabled t a u n
  unfold committedAtMark
  split
  · simp only [Scene.commit, Table.get_ofFn, WinState.committed]
    split
    next h => exact .inl ⟨rfl, henabled ▸ h.1⟩
    next => exact .inr ⟨rfl, rfl, rfl, rfl⟩
  · exact .inr ⟨rfl, rfl, rfl, rfl⟩

theorem markedScene_eq (t : Timer) (a : Scene) (u : CueUnit) :
    markedScene t a u = { committedAtMark t a u with wins := (markedScene t a u).wins } := tourSteps_states _ _

/-- R20: the tour steps change window states alone. -/
theorem markedScene_keeps (t : Timer) (a : Scene) (u : CueUnit) :
    (markedScene t a u).active = (committedAtMark t a u).active ∧ (markedScene t a u).shadow = (committedAtMark t a u).shadow ∧
    (markedScene t a u).activeList = (committedAtMark t a u).activeList ∧
    (markedScene t a u).shadowList = (committedAtMark t a u).shadowList ∧
    (markedScene t a u).recallNote = (committedAtMark t a u).recallNote ∧
    (markedScene t a u).commitPending = (committedAtMark t a u).commitPending ∧
    (markedScene t a u).presets = (committedAtMark t a u).presets := by
  have h := markedScene_eq t a u
  generalize markedScene t a u = b at h ⊢
  rw [h]
  exact ⟨rfl, rfl, rfl, rfl, rfl, rfl, rfl⟩

/-- The alarm states and clears of a window after the mark. -/
theorem markedScene_wins (t : Timer) (a : Scene) (u : CueUnit) (n : Fin 32) :
    ((markedScene t a u).wins.get n).blank = ((committedAtMark t a u).wins.get n).blank ∧
    ((markedScene t a u).wins.get n).highlight = ((committedAtMark t a u).wins.get n).highlight ∧
    ((markedScene t a u).wins.get n).blankClear = ((committedAtMark t a u).wins.get n).blankClear ∧
    ((markedScene t a u).wins.get n).highlightClear = ((committedAtMark t a u).wins.get n).highlightClear := by
  rw [markedScene, tourSteps_get]
  exact toured_keeps _ _ _

theorem committedAtMark_presets (t : Timer) (a : Scene) (u : CueUnit) : (committedAtMark t a u).presets = a.presets := by
  refine Eq.trans ?_ (unitsAtMark_presets t a u)
  unfold committedAtMark
  split <;> rfl

/-- R131, R132: expiry never makes the queue longer: a REPEAT cue is put back in its own stead. -/
theorem expire_length_le (n : BitVec 32) (fuel : Nat) (k : CueWork) :
    (CueWork.expire n fuel k).queue.length ≤ k.queue.length := by
  induction fuel generalizing k with
  | zero => exact le_rfl
  | succ fuel ih =>
    refine (ih (k.expireOne n)).trans ?_
    rcases expireOne_queue_cases k n with ⟨-, he⟩ | ⟨c, front, back, hsplit, -, -, -, ⟨-, he⟩ | ⟨-, he⟩⟩ <;> rw [he]
    · simp [hsplit]
    · rw [(putBack_perm _ _ _).length_eq, hsplit]
      simp

theorem committedAtMark_pending (t : Timer) (a : Scene) (u : CueUnit) : (committedAtMark t a u).commitPending = false := by
  unfold committedAtMark
  split
  next => rfl
  next h => simpa using h

/-- R13: no clear is pending after the mark. -/
theorem markedScene_clears (t : Timer) (a : Scene) (u : CueUnit) (n : Fin 32) :
    ((markedScene t a u).wins.get n).blankClear = false ∧ ((markedScene t a u).wins.get n).highlightClear = false := by
  obtain ⟨-, -, hblank, hhighlight⟩ := markedScene_wins t a u n
  obtain ⟨hunits, -, -⟩ := unitsAtMark_kept t a u
  obtain ⟨hclear, hclear'⟩ := hunits.clears n
  rw [clearedAtMark_get] at hclear hclear'
  rw [hblank, hhighlight]
  rcases committedAtMark_wins t a u n with ⟨hget, -⟩ | ⟨-, -, hc, hc'⟩
  · rw [hget]
    exact ⟨rfl, rfl⟩
  · exact ⟨hc.trans hclear, hc'.trans hclear'⟩

theorem takeClears_blank_of_pending {w : WinState} (h : w.blankClear = true) : (w.takeClears true).blank = .off := by
  simp [WinState.takeClears, h]

theorem takeClears_highlight_of_pending {w : WinState} (h : w.highlightClear = true) : (w.takeClears true).highlight = .off := by
  simp [WinState.takeClears, h]

theorem takeClears_of_disabled (w : WinState) :
    (w.takeClears false).blank = w.blank ∧ (w.takeClears false).highlight = w.highlight := by
  simp [WinState.takeClears]

/-- R13: a pending clear of an enabled window that no trigger unit can set again. -/
theorem markedScene_cleared {t : Timer} {a : Scene} {u : CueUnit} {n : Fin 32} (h : (a.active.get n).enabled = true) :
    ((a.wins.get n).blankClear = true → (∀ i, (u.triggers.get i).action ≠ .blank) →
      ((markedScene t a u).wins.get n).blank = .off) ∧
    ((a.wins.get n).highlightClear = true → (∀ i, (u.triggers.get i).action ≠ .highlight) →
      ((markedScene t a u).wins.get n).highlight = .off) := by
  obtain ⟨hblank, hhighlight, -, -⟩ := markedScene_wins t a u n
  obtain ⟨-, hunits, hunits'⟩ := unitsAtMark_kept t a u
  obtain ⟨hclear, hclear'⟩ := (cuesAtMark_kept t.wallN a u.queue).clears n
  have hget := clearedAtMark_get t a u n
  rw [h] at hget
  rw [hblank, hhighlight]
  rcases committedAtMark_wins t a u n with ⟨hcleared, -⟩ | ⟨hb, hb', -, -⟩
  · rw [hcleared]
    exact ⟨fun _ _ => rfl, fun _ _ => rfl⟩
  · rw [hb, hb']
    refine ⟨fun hp hnone => ?_, fun hp hnone => ?_⟩
    · rw [hunits hnone, hget, takeClears_blank_of_pending (hclear.trans hp)]
    · rw [hunits' hnone, hget, takeClears_highlight_of_pending (hclear'.trans hp)]

/-- R12, R13: the alarm states of a disabled window do not change at the mark. -/
theorem markedScene_disabled {t : Timer} {a : Scene} {u : CueUnit} {n : Fin 32} (h : (a.active.get n).enabled = false) :
    ((markedScene t a u).wins.get n).blank = (a.wins.get n).blank ∧
    ((markedScene t a u).wins.get n).highlight = (a.wins.get n).highlight := by
  obtain ⟨hblank, hhighlight, -, -⟩ := markedScene_wins t a u n
  obtain ⟨hunits, -, -⟩ := unitsAtMark_kept t a u
  have hcued := cuesAtMark_kept t.wallN a u.queue
  have hget := clearedAtMark_get t a u n
  have henabled : ((clearedAtMark t a u).active.get n).enabled = false := (hcued.enabled n).trans h
  rw [h, hcued.disabled n h] at hget
  rw [hblank, hhighlight]
  rcases committedAtMark_wins t a u n with ⟨-, hon⟩ | ⟨hb, hb', -, -⟩
  · exact absurd (h.symm.trans hon) (by decide)
  · rw [hb, hb', hunits.disabled n henabled, hget]
    exact takeClears_of_disabled _

/-- R10: a pending commit puts the shadow scene on the wall. -/
theorem committedAtMark_of_pending {t : Timer} {a : Scene} {u : CueUnit} (h : a.commitPending = true) :
    (committedAtMark t a u).active = (committedAtMark t a u).shadow ∧
    (committedAtMark t a u).activeList = (committedAtMark t a u).shadowList ∧ (committedAtMark t a u).recallNote = false := by
  rw [committedAtMark, if_pos (unitsAtMark_pending h)]
  exact ⟨rfl, rfl, rfl⟩

/-- Settles O35: the scene by `markedScene`, part by part. -/
theorem frameMarkScene : Obligations.FrameMarkScene := by
  unfold Obligations.FrameMarkScene
  intro s o hrun hzero hend
  have hm := frameMark_marked s o
  have htaken := hm.kinds_iff .commitTaken
  have htimer := hm.timer
  have hscene := hm.scene
  have hcues := hm.cues
  refine ⟨_, exec_frameMark_of_end o hrun hzero hend, ?_⟩
  generalize s.frameMark o = t at htaken htimer hscene hcues ⊢
  rw [hscene, hcues, htimer]
  obtain ⟨hactive, hshadow, hlist, hshadowList, hnote, hcommit, -⟩ := markedScene_keeps s.timer.marked s.scene s.cues
  rw [hactive, hshadow, hlist, hshadowList, hnote, hcommit]
  refine ⟨committedAtMark_pending _ _ _, fun i => Table.get_fill _ i, markedScene_clears _ _ _, fun n hn => markedScene_cleared hn,
    fun n hn => markedScene_disabled hn, fun hpending => ?_, fun hperiods => ?_⟩
  · obtain ⟨hactive, hlist, hnote⟩ := committedAtMark_of_pending (t := s.timer.marked) (u := s.cues) hpending
    exact ⟨hactive, hlist, hnote, htaken.mpr (.inr (unitsAtMark_pending hpending))⟩
  · obtain ⟨hnone, -⟩ := expire_queue_spec (n := s.timer.marked.wallN) s.cues.queue.length
      (k := ⟨⟨s.scene, []⟩, s.cues.queue⟩) hperiods (dueCount_le_length _ _)
    exact ⟨hnone, expire_length_le _ _ _⟩

end Sys2Proof.Machine
end

section
/-! The Frame Timer at the mark (R114, R119, R120, R122, R124), with the output state (R96) and the interval count (R165). -/

namespace Sys2Proof.Machine

/-! ### The timer that a mark leaves -/

theorem Timer.marked_good (t : Timer) : t.marked.good =
    if (t.syncNoted = false ∧ t.lock = .acquire) ∨ ((t.lockMissed = .locked ∨ t.lockMissed = .acquire) ∧ t.Retimed) then 0
    else t.good := by
  show (if (t.lockMissed = .locked ∨ t.lockMissed = .acquire) ∧ t.Retimed then 0
    else if t.syncNoted = false ∧ t.lock = .acquire then 0 else t.good) = _
  by_cases hretimed : (t.lockMissed = .locked ∨ t.lockMissed = .acquire) ∧ t.Retimed
  · rw [if_pos hretimed, if_pos (.inr hretimed)]
  · simp only [hretimed, or_false, if_false]

theorem Timer.marked_bad (t : Timer) : t.marked.bad =
    if (t.syncNoted = false ∧ t.lock = .locked) ∨ (t.lockMissed = .locked ∧ t.Retimed) then 0 else t.bad := by
  show (if t.lockMissed = .locked ∧ t.Retimed then 0
    else if t.syncNoted = false ∧ t.lock = .locked then 0 else t.bad) = _
  by_cases hretimed : t.lockMissed = .locked ∧ t.Retimed
  · rw [if_pos hretimed, if_pos (.inr hretimed)]
  · simp only [hretimed, or_false, if_false]

/-- R122: the gate after the mark: once opened it stays open. -/
theorem Timer.marked_gate (t : Timer) : t.marked.gate =
    if t.gate = .opened ∨ (1 ≤ t.marked.setup.startTimeout ∧ t.marked.setup.startTimeout ≤ t.marked.startCount) then .opened
    else .gated := by
  show (if 1 ≤ t.nextSetup.startTimeout ∧ t.nextSetup.startTimeout ≤ min 1000 (t.startCount + 1) then .opened else t.gate) =
    if t.gate = .opened ∨ (1 ≤ t.nextSetup.startTimeout ∧ t.nextSetup.startTimeout ≤ min 1000 (t.startCount + 1)) then
      Gate.opened else .gated
  cases t.gate <;> simp

/-- R119: the lock state after missed-frame accounting, by the state before. -/
theorem Timer.lockMissed_eq (t : Timer) : t.lockMissed = if t.syncNoted = true then t.lock
    else match t.lock with
      | .free => .free
      | .acquire => if 3 ≤ t.missedCount then .free else .acquire
      | .locked => .holdover
      | .holdover => if t.setup.holdoverLimit ≤ t.missedCount then .free else .holdover := rfl

/-- R96: the Compositor takes the gate and the backlight of the timer that it finds. -/
theorem takeGate_spec (c : Compositor) (t : Timer) :
    (t.gate = .opened → c.takeGate t.gate t.setup.backlight = { c with output := .show, backlight := t.setup.backlight }) ∧
    (t.gate = .gated → c.takeGate t.gate t.setup.backlight = { c with output := .black, backlight := 0 }) :=
  ⟨fun h => c.takeGate_of_opened h _, fun h => c.takeGate_of_gated h _⟩

theorem takeGate_glyphs (c : Compositor) (g : Gate) (level : Nat) : (c.takeGate g level).glyphs = c.glyphs := by
  cases g <;> rfl

/-- The timer that a block finds at a mark, by the side that the order gives it. -/
theorem timer_of_side {s t : State} (h : t.timer = s.timer.marked) (first : Bool) :
    (if first = true then s else t).timer = if first = true then s.timer else s.timer.marked := by
  cases first
  · exact h
  · rfl

/-- Settles O34: the timer by `Timer.marked`, the other blocks by `Marked`. -/
theorem frameMarkTimer : Obligations.FrameMarkTimer := by
  unfold Obligations.FrameMarkTimer
  intro s o hrun hzero hend
  have hm := frameMark_marked s o
  have htimer := hm.timer
  have hlock := hm.kinds_iff .lockChange
  have hsetup := hm.kinds_iff .setupTaken
  have hgate := hm.kinds_iff .gateOpen
  obtain ⟨hring, haddress, horigins⟩ := frameMark_outer s o
  have hfree := (frameMark_keeps o s).1
  refine ⟨s.frameMark o, s.timer.missedCount, s.timer.lockMissed, exec_frameMark_of_end o hrun hzero hend, rfl,
    Timer.lockMissed_eq s.timer, ?_⟩
  generalize s.frameMark o = t at hm htimer hlock hsetup hgate hring haddress horigins hfree ⊢
  have hcomp := hm.comp
  have hcount := hm.count
  have hpresets : t.scene.presets = s.scene.presets := by
    obtain ⟨-, -, -, -, -, -, hpresets⟩ := markedScene_keeps s.timer.marked s.scene s.cues
    rw [hm.scene, hpresets, committedAtMark_presets]
  have hlock' : s.timer.marked.lock ≠ s.timer.lock → kindIn t.cmd.attention .lockChange = true := fun h =>
    hlock.mpr (.inr (show t.timer.lock ≠ s.timer.lock by rwa [htimer]))
  have hgate' : s.timer.marked.gate ≠ s.timer.gate → kindIn t.cmd.attention .gateOpen = true := fun h =>
    hgate.mpr (.inr (show t.timer.gate ≠ s.timer.gate by rwa [htimer]))
  rw [htimer]
  refine ⟨rfl, rfl, rfl, rfl, rfl, rfl, rfl, rfl, Timer.marked_lock _, Timer.marked_good _, Timer.marked_bad _,
    hlock', fun h => hsetup.mpr (.inr h), rfl, Timer.marked_gate _,
    hgate', rfl, rfl, rfl, rfl, rfl, rfl, rfl, fun u hu => ?_, fun u hu => ?_,
    fun hdue => ⟨hm.status (.inl hdue), fun hlast => hm.slot hlast ?_⟩,
    fun k hk hlatched hmask => hm.status (.inr ⟨k, ?_, hmask⟩), hring, haddress, horigins, by rw [hm.src]; rfl, ?_,
    by rw [hm.cues], hpresets, hfree⟩
  · have hu' := timer_of_side htimer o.compositorFirst
    rw [← hu] at hu'
    rw [← hu'] at hcomp
    rw [hcomp]
    exact takeGate_spec _ _
  · have hu' := timer_of_side htimer o.commandFirst
    rw [← hu] at hu'
    rw [← hu'] at hcount
    exact hcount
  · unfold IntervalDue at hdue
    rw [hlast, if_neg (by decide), htimer] at hdue
    exact hdue
  · rcases hk with rfl | rfl | rfl <;> exact hlatched
  · rw [hcomp, takeGate_glyphs]

end Sys2Proof.Machine
end

section
/-! The Scene Controller's work at a mark in its order (R22), with the change set (R11) and what is handed over (R23). -/

namespace Sys2Proof.Machine

/-! ### The change set (R11) -/

theorem Table.take_ne_iff {α : Type} {n : Nat} (a b : Table α n) (len : Nat) :
    a.rows.take len ≠ b.rows.take len ↔ ∃ i : Fin n, i.val < len ∧ a.get i ≠ b.get i := by
  rw [← not_iff_not]
  simp only [ne_eq, not_not, not_exists, not_and]
  constructor
  · intro h i hi
    have hentry := congrArg (fun l => l[i.val]?) h
    simp only [List.getElem?_take, hi, if_true] at hentry
    have hget : ∀ t : Table α n, t.rows[i.val]? = some (t.get i) := fun t => by
      rw [List.getElem?_eq_getElem (by rw [t.len]; exact i.isLt)]
      rfl
    rw [hget, hget] at hentry
    exact Option.some.inj hentry
  · intro h
    refine List.ext_getElem (by simp [a.len, b.len]) fun j hj _ => ?_
    simp only [List.length_take, a.len, lt_min_iff] at hj
    simp only [List.getElem_take]
    exact h ⟨j, hj.2⟩ hj.1

theorem tourDiffers_iff (a b : WinRec) : tourDiffers a b = true ↔
    (a.tourLen ≠ b.tourLen ∨ ∃ i : Fin 8, i.val < b.tourLen ∧ a.tourList.get i ≠ b.tourList.get i) := by
  simp only [tourDiffers, Bool.or_eq_true, decide_eq_true_eq]
  by_cases hlen : a.tourLen = b.tourLen
  · rw [hlen, Table.take_ne_iff]
  · simp [hlen]

theorem otherDiffers_iff (a b : WinRec) : otherDiffers a b = true ↔ { a with
    enabled := b.enabled, source := b.source, tourLen := b.tourLen, tourList := b.tourList, dwell := b.dwell
    x := b.x, y := b.y, w := b.w, h := b.h, cx := b.cx, cy := b.cy, cw := b.cw, ch := b.ch, mode := b.mode } ≠ b := by
  rw [← not_iff_not, not_not]
  cases a
  cases b
  simp [otherDiffers, and_assoc]

theorem WinChange.any_iff (c : WinChange) : c.any = true ↔ (c.enabled = true ∨ c.source = true ∨ c.tour = true ∨
    c.dwell = true ∨ c.rect = true ∨ c.crop = true ∨ c.mode = true ∨ c.other = true) := by
  simp [WinChange.any, or_assoc]

theorem winChange_of_disabled {a b : WinRec} (ha : a.enabled = false) (hb : b.enabled = false) :
    winChange a b = WinChange.none := if_pos ⟨ha, hb⟩

theorem winChange_of_enabled {a b : WinRec} (h : a.enabled = true ∨ b.enabled = true) : winChange a b = {
    enabled := decide (a.enabled ≠ b.enabled)
    source := decide (a.source ≠ b.source)
    tour := tourDiffers a b
    dwell := decide (a.dwell ≠ b.dwell)
    rect := decide ((a.x, a.y, a.w, a.h) ≠ (b.x, b.y, b.w, b.h))
    crop := decide ((a.cx, a.cy, a.cw, a.ch) ≠ (b.cx, b.cy, b.cw, b.ch))
    mode := decide (a.mode ≠ b.mode)
    other := otherDiffers a b } := by
  refine if_neg ?_
  rintro ⟨ha, hb⟩
  rcases h with h | h
  · rw [ha] at h
    exact absurd h (by decide)
  · rw [hb] at h
    exact absurd h (by decide)

theorem quad_ne_iff (a b c d a' b' c' d' : Nat) : (a, b, c, d) ≠ (a', b', c', d') ↔ (a ≠ a' ∨ b ≠ b' ∨ c ≠ c' ∨ d ≠ d') := by
  rw [← not_iff_not]
  simp

/-! ### The commit (R10, R14, R19) -/

/-- R19: the commit sets the epoch in four cases. -/
theorem restartsTour_iff {a b : WinRec} {note : Bool} (hb : b.enabled = true) : restartsTour a b note = true ↔
    (1 ≤ b.tourLen ∧ (a.enabled = false ∨ a.tourLen = 0 ∨ a.tourLen ≠ b.tourLen ∨
      (∃ i : Fin 8, i.val < b.tourLen ∧ a.tourList.get i ≠ b.tourList.get i) ∨ a.dwell ≠ b.dwell ∨ note = true)) := by
  rw [restartsTour, winChange_of_enabled (.inr hb)]
  simp only [Bool.and_eq_true, Bool.or_eq_true, WinRec.tours_iff, hb, true_and, Bool.not_eq_true', decide_eq_true_eq,
    tourDiffers_iff, or_assoc]

theorem restartsTour_of_disabled {a b : WinRec} (note : Bool) (hb : b.enabled = false) : restartsTour a b note = false := by
  simp [restartsTour, WinRec.tours, hb]

theorem committed_of_disabled {a b : WinRec} (ha : a.enabled = true) (hb : b.enabled = false) (w : WinState) (note : Bool)
    (n : BitVec 32) : w.committed a b note n = WinState.cleared := if_pos ⟨ha, hb⟩

theorem committed_of_not {a b : WinRec} (h : ¬(a.enabled = true ∧ b.enabled = false)) (w : WinState) (note : Bool)
    (n : BitVec 32) : w.committed a b note n = { w with
      epoch := if restartsTour a b note = true then n else w.epoch
      tourSource := if b.tours = true then w.tourSource else none } := if_neg h

/-- R10, R14, R19: a window's state after a commit, by its records before and after. -/
theorem committed_spec (w : WinState) (a b : WinRec) (note : Bool) (n : BitVec 32) :
    (a.enabled = true → b.enabled = false → w.committed a b note n = ⟨.off, .off, 0, none, false, false⟩) ∧
    (a.enabled = false → b.enabled = false →
      w.committed a b note n = { w with tourSource := (w.committed a b note n).tourSource }) ∧
    (b.enabled = true → w.committed a b note n = { w with
      tourSource := if 1 ≤ b.tourLen then w.tourSource else none
      epoch := if 1 ≤ b.tourLen ∧ (a.enabled = false ∨ a.tourLen = 0 ∨ a.tourLen ≠ b.tourLen ∨
          (∃ i : Fin 8, i.val < b.tourLen ∧ a.tourList.get i ≠ b.tourList.get i) ∨ a.dwell ≠ b.dwell ∨ note = true)
        then n else w.epoch }) := by
  refine ⟨fun ha hb => committed_of_disabled ha hb w note n, fun ha hb => ?_, fun hb => ?_⟩
  · rw [committed_of_not (by simp [ha]), restartsTour_of_disabled note hb]
    rfl
  · rw [committed_of_not (by simp [hb])]
    have htours : b.tours = true ↔ 1 ≤ b.tourLen := by simp [WinRec.tours_iff, hb]
    simp only [restartsTour_iff hb, htours]

/-! ### The due cues and the trigger units, one after the other (R131, R138) -/

/-- R131: the due cues, one after the other. -/
theorem expire_eq_iterate (n : BitVec 32) (fuel : Nat) (k : CueWork) :
    CueWork.expire n fuel k = (fun q : CueWork => q.expireOne n)^[fuel] k := by
  induction fuel generalizing k with
  | zero => rfl
  | succ fuel ih => exact ih (k.expireOne n)

/-- R138: the trigger units up to a number. -/
def SceneWork.unitsUpTo (k : SceneWork) (u : CueUnit) (prev cur : BitVec 32) (j : Nat) : SceneWork :=
  ((indices 8).take j).foldl (fun acc i => acc.unitActs (u.triggers.get i) (u.strobes.get i) prev cur) k

theorem unitsUpTo_succ (k : SceneWork) (u : CueUnit) (prev cur : BitVec 32) (i : Fin 8) :
    k.unitsUpTo u prev cur (i.val + 1) =
      (k.unitsUpTo u prev cur i.val).unitActs (u.triggers.get i) (u.strobes.get i) prev cur := by
  have hget : (indices 8)[i.val]? = some i := by
    rw [indices, List.getElem?_ofFn, dif_pos i.isLt]
    rfl
  rw [SceneWork.unitsUpTo, List.take_add_one, hget, List.foldl_append]
  rfl

theorem unitsUpTo_all (k : SceneWork) (u : CueUnit) (prev cur : BitVec 32) :
    k.unitsUpTo u prev cur 8 = k.unitsAct u prev cur := by
  rw [SceneWork.unitsUpTo, List.take_of_length_le (by simp [indices])]
  rfl

/-- R132: where a cue is put back. -/
theorem putBack_spec (n : BitVec 32) (c : Cue) (q : List Cue) : ∃ f b, putBack n c q = f ++ c :: b ∧ f ++ b = q ∧
    (∀ d ∈ f, atOrBefore n d.target = true ∨ distance n d.target ≤ distance n c.target) ∧
    ∀ d, b.head? = some d → atOrBefore n d.target = false ∧ distance n c.target < distance n d.target := by
  refine ⟨_, _, rfl, List.takeWhile_append_dropWhile, fun d hd => by simpa using List.mem_takeWhile_imp hd, fun d hd => ?_⟩
  generalize hp : (fun d : Cue => atOrBefore n d.target || decide (distance n d.target ≤ distance n c.target)) = p at hd
  have hnot : p d = false := by
    have h := List.head?_dropWhile_not p q
    rw [hd] at h
    simpa using h
  rw [← hp] at hnot
  simpa using hnot

/-- R13: what the pending clears of a window come to. -/
theorem takeClears_eq (w : WinState) (on : Bool) : w.takeClears on = { w with
    blank := if w.blankClear = true ∧ on = true then .off else w.blank
    highlight := if w.highlightClear = true ∧ on = true then .off else w.highlight
    blankClear := false
    highlightClear := false } := by
  simp only [WinState.takeClears, Bool.and_eq_true]

/-- R20: what a tour step leaves of a window's state. -/
theorem toured_spec (w : WinState) (r : WinRec) (n : BitVec 32) {d step : Nat} (hd : d = (n - w.epoch).toNat)
    (hstep : step = if d < 2 ^ 31 then d / (r.dwell + 1) % r.tourLen else 0) :
    (r.enabled = false ∨ r.tourLen = 0 → w.toured r n = w) ∧
    (r.enabled = true → 1 ≤ r.tourLen → r.tourLen ≤ 8 → w.toured r n = { w with
      epoch := if d < 2 ^ 31 then w.epoch else n
      tourSource := some (r.tourList.get (Fin.ofNat 8 step)) }) := by
  refine ⟨fun h => if_neg fun htours => ?_, fun henabled hlen _ =>
    WinState.toured_eq ((WinRec.tours_iff r).mpr ⟨henabled, hlen⟩) w n hd hstep⟩
  obtain ⟨henabled, hlen⟩ := (WinRec.tours_iff r).mp htours
  rcases h with h | h
  · rw [h] at henabled
    exact absurd henabled (by decide)
  · omega

theorem changesAtMark_get (t : Timer) (a : Scene) (u : CueUnit) (n : Fin 32) : (changesAtMark t a u).get n =
    if (unitsAtMark t a u).scene.commitPending = true then
      winChange ((unitsAtMark t a u).scene.active.get n) ((unitsAtMark t a u).scene.shadow.get n)
    else WinChange.none := by
  unfold changesAtMark
  split
  · exact Table.get_ofFn _ n
  · exact Table.get_fill _ n

/-- R21, R23: the windows handed over as switched in place. -/
theorem handAtMark_switched (t : Timer) (a : Scene) (u : CueUnit) (g : Bool) (n : Fin 32) :
    n ∈ (handAtMark t a u g).switched ↔ (n ∈ (unitsAtMark t a u).switched ∨
      (((markedScene t a u).wins.get n).tourSource ≠ ((committedAtMark t a u).wins.get n).tourSource ∧
        ((changesAtMark t a u).get n).any = false)) := by
  have hstep : (((committedAtMark t a u).tourStep n t.wallN).wins.get n) = (markedScene t a u).wins.get n :=
    (Table.get_set_self _ _ _).trans (tourSteps_get _ _ _).symm
  simp only [handAtMark, List.mem_append, Scene.tourSwitches, List.mem_filter, mem_indices, true_and, Scene.tourMoves, hstep,
    Bool.and_eq_true, decide_eq_true_eq, Bool.not_eq_true']

/-- R10: the scene after the commit. -/
theorem committedAtMark_spec (t : Timer) (a : Scene) (u : CueUnit) :
    ((unitsAtMark t a u).scene.commitPending = false → committedAtMark t a u = (unitsAtMark t a u).scene) ∧
    ((unitsAtMark t a u).scene.commitPending = true →
      committedAtMark t a u = { (unitsAtMark t a u).scene with
        active := (unitsAtMark t a u).scene.shadow
        activeList := (unitsAtMark t a u).scene.shadowList
        commitPending := false
        recallNote := false
        wins := (committedAtMark t a u).wins } ∧
      ∀ n, (committedAtMark t a u).wins.get n = ((unitsAtMark t a u).scene.wins.get n).committed
        ((unitsAtMark t a u).scene.active.get n) ((unitsAtMark t a u).scene.shadow.get n)
        (unitsAtMark t a u).scene.recallNote t.wallN) := by
  refine ⟨fun h => if_neg (by rw [h]; decide), fun h => ?_⟩
  have heq : committedAtMark t a u = (unitsAtMark t a u).scene.commit t.wallN := if_pos h
  rw [heq]
  exact ⟨rfl, fun n => Table.get_ofFn _ n⟩

/-- R23: what the mark hands over of the scene that it leaves. -/
theorem handMarked_keeps (s : State) :
    s.handMarked.active = (markedScene s.timer.marked s.scene s.cues).active ∧
    s.handMarked.activeList = (markedScene s.timer.marked s.scene s.cues).activeList ∧
    s.handMarked.geo = s.timer.marked.setup.geo ∧
    (∀ n, s.handMarked.tours.get n = ((markedScene s.timer.marked s.scene s.cues).wins.get n).tourSource) ∧
    (s.handMarked.geoChanged = true ↔ s.timer.marked.setup.geo ≠ s.timer.setup.geo) ∧
    s.handMarked.changes = changesAtMark s.timer.marked s.scene s.cues := by
  simp only [State.handMarked, handAtMark, Table.get_map, decide_eq_true_eq, implies_true, and_self]

theorem lateAtMark_iff (s : State) : LateAtMark s ↔ ∃ c ∈ s.cues.queue,
    atOrBefore s.timer.marked.wallN c.target = true ∧ c.target ≠ s.timer.marked.wallN := by
  simp [LateAtMark, isLate]

/-- Settles O36: the order of the work by `Marked`, the parts by their equations. -/
theorem sceneAtMark : Obligations.SceneAtMark := by
  unfold Obligations.SceneAtMark
  refine ⟨fun s o hrun hzero hend => ?_, fun k n => ⟨fun h => expireOne_of_noneDue h, fun front back c hq hfront hdue => ?_⟩,
    fun a b c hc => ?_⟩
  · have hexec := exec_frameMark_of_end o hrun hzero hend
    have hm := frameMark_marked s o
    generalize s.frameMark o = t at hexec hm
    have htimer := hm.timer
    have hkinds := hm.kinds_iff
    have hstatus := hm.status
    have hslot := hm.slot_kept
    have hq : (fun q : CueWork => q.expireOne s.timer.marked.wallN)^[s.cues.queue.length] ⟨⟨s.scene, []⟩, s.cues.queue⟩ =
        cuesAtMark s.timer.marked.wallN s.scene s.cues.queue := (expire_eq_iterate _ _ _).symm
    have hk : SceneWork.unitsUpTo ⟨clearedAtMark s.timer.marked s.scene s.cues,
        (cuesAtMark s.timer.marked.wallN s.scene s.cues.queue).work.switched⟩ s.cues s.timer.marked.prevFlags
        s.timer.marked.curFlags 8 = unitsAtMark s.timer.marked s.scene s.cues := unitsUpTo_all _ _ _ _
    obtain ⟨hdone, hcommitted⟩ := committedAtMark_spec s.timer.marked s.scene s.cues
    refine ⟨t, fun j => (fun q : CueWork => q.expireOne s.timer.marked.wallN)^[j] ⟨⟨s.scene, []⟩, s.cues.queue⟩,
      SceneWork.unitsUpTo ⟨clearedAtMark s.timer.marked s.scene s.cues,
        (cuesAtMark s.timer.marked.wallN s.scene s.cues.queue).work.switched⟩ s.cues s.timer.marked.prevFlags
        s.timer.marked.curFlags, (cuesAtMark s.timer.marked.wallN s.scene s.cues.queue).work.scene,
      (unitsAtMark s.timer.marked s.scene s.cues).scene, committedAtMark s.timer.marked s.scene s.cues, s.handMarked,
      LateAtMark s, ShortAtMark s t, hexec, rfl, ?_⟩
    obtain ⟨hactive, hlist, hgeo, htours, hgeoChanged, hchanges⟩ := handMarked_keeps s
    rw [htimer, hm.scene, hm.cues]
    dsimp only
    rw [hq]
    refine ⟨fun j => Function.iterate_succ_apply' _ j _, rfl, rfl, rfl, rfl, fun n => ?_, unitsUpTo_succ _ _ _ _, by rw [hk],
      hdone, fun hpending => ⟨(hcommitted hpending).1, fun n a b w ha hb hw => ?_⟩, markedScene_eq _ _ _,
      fun n r w d step hr hw hd hstep => ?_, hactive, hlist, hgeo, htours, hgeoChanged,
      fun n => ?_, fun n => ?_, ?_, lateAtMark_iff s, and_congr_left' (HandOver.allocates_iff _), hkinds, hstatus, hslot⟩
    · exact (takeClears_get _ n).trans (takeClears_eq _ _)
    · rw [(hcommitted hpending).2 n, ← ha, ← hb, ← hw]
      exact committed_spec w a b _ _
    · rw [markedScene, tourSteps_get, ← hr, ← hw]
      exact toured_spec w r _ hd hstep
    · rw [hchanges]
      exact changesAtMark_get _ _ _ n
    · rw [hk, hchanges]
      exact handAtMark_switched _ _ _ _ n
    · rw [hm.store, hm.src]
      unfold State.storeMarked
      cases o.trackerFirst <;> rfl
  · obtain ⟨hwork, honce, hrepeat⟩ := expireOne_of_due hq hfront hdue
    refine ⟨hwork, honce, fun hmode => ?_⟩
    obtain ⟨f, b, hput, hsplit, hf, hb⟩ := putBack_spec n { c with target := nextTarget n c.target c.period } (front ++ back)
    exact ⟨_, f, b, rfl, (hrepeat hmode).trans hput, hsplit, hf, hb⟩
  · subst hc
    refine ⟨WinChange.any_iff _, fun ha hb => by rw [winChange_of_disabled ha hb]; rfl, fun h => ?_⟩
    rw [winChange_of_enabled h]
    exact ⟨decide_eq_true_iff, decide_eq_true_iff, tourDiffers_iff a b, decide_eq_true_iff,
      decide_eq_true_iff.trans (quad_ne_iff ..), decide_eq_true_iff.trans (quad_ne_iff ..), decide_eq_true_iff,
      otherDiffers_iff a b⟩

end Sys2Proof.Machine
end

section
/-! The trigger units (R136, R137, R139): when a unit acts, and what each action comes to. -/

namespace Sys2Proof.Machine

/-! ### Requests (R12, Table 1-5) -/

theorem withBlank_eq (k : SceneWork) (n : Fin 32) (q : AlarmRequest) :
    ({ k with scene := k.scene.requestBlank n q } : SceneWork) = k.withBlank n ((k.scene.wins.get n).blank.request q) := by
  unfold Scene.requestBlank SceneWork.withBlank
  split <;> rfl

theorem withHighlight_eq (k : SceneWork) (n : Fin 32) (q : AlarmRequest) :
    ({ k with scene := k.scene.requestHighlight n q } : SceneWork) =
      k.withHighlight n ((k.scene.wins.get n).highlight.request q) := by
  unfold Scene.requestHighlight SceneWork.withHighlight
  split <;> rfl

theorem withBlank_self (k : SceneWork) (n : Fin 32) : k.withBlank n (k.scene.wins.get n).blank = k := by
  unfold SceneWork.withBlank
  split
  next =>
    have hset : k.scene.wins.set n (k.scene.wins.get n) = k.scene.wins := Table.set_get _ n
    exact congrArg (fun wins => ({ k with scene := { k.scene with wins := wins } } : SceneWork)) hset
  next => rfl

theorem withHighlight_self (k : SceneWork) (n : Fin 32) : k.withHighlight n (k.scene.wins.get n).highlight = k := by
  unfold SceneWork.withHighlight
  split
  next =>
    have hset : k.scene.wins.set n (k.scene.wins.get n) = k.scene.wins := Table.set_get _ n
    exact congrArg (fun wins => ({ k with scene := { k.scene with wins := wins } } : SceneWork)) hset
  next => rfl

/-- R12: a LEVEL request leaves LATCHED, and otherwise follows the flag. -/
theorem request_level (a : AlarmState) (c : Bool) : a.request (if c = true then .levelOn else .levelOff) =
    if a = .latched then .latched else if c = true then .level else .off := by
  cases a <;> cases c <;> rfl

/-! ### What a unit reads (R136) -/

theorem Trigger.reads_of_select {u : Trigger} (h : u.flagSelect ≠ 0) (w : BitVec 32) :
    u.reads w = some ((decide (u.flagSelect = 1) || w.getLsbD (u.flagSelect - 2)) != u.invert) := by
  rw [Trigger.reads, if_neg h]
  split
  next h1 => simp [h1, bne]
  next h1 => simp [h1, bne]

theorem Trigger.reads_of_unselected {u : Trigger} (h : u.flagSelect = 0) (w : BitVec 32) : u.reads w = none := if_pos h

theorem EdgeMode.sees_iff (e : EdgeMode) (p c : Bool) : e.sees p c = true ↔
    ((e = .rising ∧ p = false ∧ c = true) ∨ (e = .falling ∧ p = true ∧ c = false) ∨ (e = .any ∧ p ≠ c)) := by
  cases e <;> simp [EdgeMode.sees]

/-! ### What a unit does (R137, R139) -/

theorem unitActs_of_strobe (k : SceneWork) (u : Trigger) (prev cur : BitVec 32) :
    k.unitActs u true prev cur = k.act u.action u.window u.param := if_pos rfl

theorem unitActs_of_unselected (k : SceneWork) {u : Trigger} (h : u.flagSelect = 0) (prev cur : BitVec 32) :
    k.unitActs u false prev cur = k := by
  rw [SceneWork.unitActs, if_neg (by decide), Trigger.reads_of_unselected h]

theorem unitActs_of_selected (k : SceneWork) {u : Trigger} {prev cur : BitVec 32} {p c : Bool}
    (hp : u.reads prev = some p) (hc : u.reads cur = some c) : k.unitActs u false prev cur =
      if u.edge = .level then k.actLevel c u.action u.window u.param
      else if u.edge.sees p c then k.act u.action u.window u.param else k := by
  rw [SceneWork.unitActs, if_neg (by decide), hp, hc]

/-- R137, R139: a unit that acts does its action once; a LEVEL unit makes its request; any other does nothing. -/
theorem unitActs_spec (k : SceneWork) (u : Trigger) {strobe p c acts : Bool} {prev cur : BitVec 32}
    (hp : p = ((decide (u.flagSelect = 1) || prev.getLsbD (u.flagSelect - 2)) != u.invert))
    (hc : c = ((decide (u.flagSelect = 1) || cur.getLsbD (u.flagSelect - 2)) != u.invert))
    (hacts : acts = true ↔ (strobe = true ∨ (u.flagSelect ≠ 0 ∧
      ((u.edge = .rising ∧ p = false ∧ c = true) ∨ (u.edge = .falling ∧ p = true ∧ c = false) ∨
        (u.edge = .any ∧ p ≠ c))))) :
    (acts = true → k.unitActs u strobe prev cur = k.act u.action u.window u.param) ∧
    (acts = false → u.flagSelect ≠ 0 → u.edge = .level →
      k.unitActs u strobe prev cur = k.actLevel c u.action u.window u.param) ∧
    (acts = false → u.flagSelect = 0 ∨ u.edge ≠ .level → k.unitActs u strobe prev cur = k) := by
  rw [← EdgeMode.sees_iff] at hacts
  cases strobe with
  | true =>
    have hon : acts = true := hacts.mpr (.inl rfl)
    exact ⟨fun _ => unitActs_of_strobe k u prev cur, fun hoff => absurd (hoff.symm.trans hon) (by decide),
      fun hoff => absurd (hoff.symm.trans hon) (by decide)⟩
  | false =>
    by_cases hselect : u.flagSelect = 0
    · have hoff : acts = false := by
        rw [Bool.eq_false_iff, ne_eq, hacts]
        rintro (h | ⟨h, -⟩)
        · exact absurd h (by decide)
        · exact h hselect
      exact ⟨fun hon => absurd (hoff.symm.trans hon) (by decide), fun _ h => absurd hselect h,
        fun _ _ => unitActs_of_unselected k hselect prev cur⟩
    · have hsees : acts = u.edge.sees p c := by
        rw [Bool.eq_iff_iff, hacts]
        simp [hselect]
      rw [unitActs_of_selected k (hp ▸ Trigger.reads_of_select hselect prev) (hc ▸ Trigger.reads_of_select hselect cur),
        ← hsees]
      refine ⟨fun hon => ?_, fun _ _ hlevel => if_pos hlevel, fun hoff h => ?_⟩
      · rw [hon, if_pos rfl]
        refine if_neg fun hlevel => ?_
        rw [hsees, hlevel] at hon
        cases hon
      · rw [if_neg (h.resolve_left hselect), hoff]
        rfl

theorem indexOf_of_val {n : Nat} [NeZero n] {k : Nat} {i : Fin n} (h : k = i.val) : indexOf n k = i :=
  Fin.ext (by rw [indexOf_val, h, Nat.mod_eq_of_lt i.isLt])

/-- R131, R137: an action, by its window and its source or preset. -/
theorem act_spec (k : SceneWork) (a : Action) {window param : Byte} :
    (∀ w : Fin 32, window.toNat = w.val →
      (a = .blank → k.act a window param = k.withBlank w .latched) ∧
      (a = .highlight → k.act a window param = k.withHighlight w .latched) ∧
      (a = .raise → k.act a window param = { k with scene := k.scene.raise w }) ∧
      (∀ src : Fin 32, a = .source → param.toNat = src.val → k.act a window param = k.source w src)) ∧
    (∀ preset : Fin 4, a = .recall → param.toNat = preset.val →
      k.act a window param = { k with scene := k.scene.recall preset }) := by
  refine ⟨fun w hw => ?_, fun preset ha hpreset => ?_⟩
  · have hwindow := indexOf_of_val hw
    refine ⟨fun ha => ?_, fun ha => ?_, fun ha => ?_, fun src ha hsrc => ?_⟩ <;> subst ha <;>
      simp only [SceneWork.act, hwindow]
    · exact withBlank_eq k w .latch
    · exact withHighlight_eq k w .latch
    · rw [indexOf_of_val hsrc]
  · subst ha
    simp only [SceneWork.act, indexOf_of_val hpreset]

/-- R137: a LEVEL unit's request, by its action. -/
theorem actLevel_spec (k : SceneWork) (c : Bool) (a : Action) {window param : Byte} {w : Fin 32} (hw : window.toNat = w.val) :
    (a = .blank → k.actLevel c a window param = if (k.scene.wins.get w).blank = .latched then k
      else k.withBlank w (if c = true then .level else .off)) ∧
    (a = .highlight → k.actLevel c a window param = if (k.scene.wins.get w).highlight = .latched then k
      else k.withHighlight w (if c = true then .level else .off)) ∧
    (a = .raise → k.actLevel c a window param = if c = true then { k with scene := k.scene.raise w } else k) ∧
    (∀ src : Fin 32, a = .source → param.toNat = src.val →
      k.actLevel c a window param = if c = true then k.source w src else k) := by
  have hwindow := indexOf_of_val hw
  obtain ⟨hact, -⟩ := act_spec k a (window := window) (param := param)
  obtain ⟨-, -, hraise, hsource⟩ := hact w hw
  refine ⟨fun ha => ?_, fun ha => ?_, fun ha => ?_, fun src ha hsrc => ?_⟩
  · subst ha
    simp only [SceneWork.actLevel, hwindow]
    rw [withBlank_eq, request_level]
    split
    next h => rw [← h, withBlank_self]
    next => rfl
  · subst ha
    simp only [SceneWork.actLevel, hwindow]
    rw [withHighlight_eq, request_level]
    split
    next h => rw [← h, withHighlight_self]
    next => rfl
  · rw [← hraise ha]
    subst ha
    rfl
  · rw [← hsource src ha hsrc]
    subst ha
    rfl

/-- Settles O37: whether a unit acts by `unitActs_spec`, what it does by `act_spec` and `actLevel_spec`. -/
theorem triggerUnitsAct : Obligations.TriggerUnitsAct := by
  unfold Obligations.TriggerUnitsAct
  refine ⟨fun k after u strobe p c acts prev cur hafter hp hc hacts => ?_, fun a => ⟨?_, rfl, rfl, fun h => ?_⟩⟩
  · subst hafter
    obtain ⟨hact, hlevel, hidle⟩ := unitActs_spec k u hp hc hacts
    obtain ⟨hwindow, hpreset⟩ := act_spec k u.action (window := u.window) (param := u.param)
    refine ⟨fun w hw => ⟨fun hon => ?_, fun hoff hselect hedge => ?_⟩, fun preset ha hparam hon => ?_, hidle⟩
    · rw [hact hon]
      exact hwindow w hw
    · rw [hlevel hoff hselect hedge]
      exact actLevel_spec k c u.action hw
    · rw [hact hon]
      exact hpreset preset ha hparam
  · cases a <;> rfl
  · cases a
    · exact ⟨rfl, rfl⟩
    · exact ⟨rfl, rfl⟩
    · exact absurd rfl h

end Sys2Proof.Machine
end

section
/-! The panel, pixel by pixel (R99 to R110): the window that supplies a pixel, its caption, its border and its content. -/

namespace Sys2Proof.Machine

/-! ### The stacking walk (R99) -/

theorem contains_iff (r : WinRec) (x y : Nat) : r.contains x y = true ↔ (r.x ≤ x ∧ x < r.x + r.w ∧ r.y ≤ y ∧ y < r.y + r.h) := by
  simp [WinRec.contains, and_assoc]

/-- R99: a window is passed over where it is HIDDEN or does not contain the pixel. -/
theorem supplies_eq_false_iff (r : WinRec) (x y : Nat) :
    (decide (r.mode ≠ .hidden) && r.contains x y) = false ↔ (r.mode = .hidden ∨ r.contains x y = false) := by
  simp only [Bool.and_eq_false_iff, decide_eq_false_iff_not, not_not]

theorem supplier_of_front {s : Scene} {x y : Nat} {front back : List (Fin 32)} {n : Fin 32}
    (hlist : s.activeList = front ++ n :: back) (hmode : (s.active.get n).mode ≠ .hidden)
    (hin : (s.active.get n).contains x y = true)
    (hfront : ∀ m ∈ front, (s.active.get m).mode = .hidden ∨ (s.active.get m).contains x y = false) :
    s.supplier x y = some n := by
  rw [Scene.supplier, hlist, List.find?_append, List.find?_cons_of_pos (by simp [hmode, hin])]
  rw [List.find?_eq_none.mpr fun m hm => by
    rw [(supplies_eq_false_iff _ x y).mpr (hfront m hm)]
    decide]
  rfl

theorem supplier_of_none {s : Scene} {x y : Nat}
    (h : ∀ m ∈ s.activeList, (s.active.get m).mode = .hidden ∨ (s.active.get m).contains x y = false) :
    s.supplier x y = none :=
  List.find?_eq_none.mpr fun m hm => by
    rw [(supplies_eq_false_iff _ x y).mpr (h m hm)]
    decide

theorem wallColour_of_supplier {s : State} {x y : Nat} {n : Fin 32} (h : s.scene.supplier x y = some n) :
    s.wallColour x y = s.windowColour n x y := by
  rw [State.wallColour, h]

theorem wallColour_of_none {s : State} {x y : Nat} (h : s.scene.supplier x y = none) :
    s.wallColour x y = s.timer.setup.background := by
  rw [State.wallColour, h]

/-! ### Captions (R101 to R103) -/

theorem captionAt_iff {r : WinRec} {x y : Nat} (hin : r.contains x y = true) : r.captionAt x y = true ↔
    (1 ≤ r.capLen ∧ x < r.x + 12 * r.capSize * r.capLen ∧
      (r.capPlace = .top → y < r.y + 16 * r.capSize) ∧ (r.capPlace = .bottom → r.y + r.h ≤ y + 16 * r.capSize)) := by
  cases hplace : r.capPlace <;> simp [WinRec.captionAt, hin, hplace, and_assoc]

theorem captionRow_of_top {r : WinRec} (h : r.capPlace = .top) (y : Nat) : r.captionRow y = (y - r.y) / r.capSize := by
  rw [WinRec.captionRow, h]

theorem captionRow_of_bottom {r : WinRec} (h : r.capPlace = .bottom) (y : Nat) :
    r.captionRow y = (y + 16 * r.capSize - (r.y + r.h)) / r.capSize := by
  rw [WinRec.captionRow, h]

/-- An offset is its whole glyph pixels and what is left within one. -/
theorem offset_split (a s : Nat) : a = a / s * s + a % s := by
  rw [Nat.mul_comm]
  exact (Nat.div_add_mod a s).symm

/-- R102: the glyph row and the place within it of a caption pixel, from the caption's top row. -/
theorem captionRow_spec {r : WinRec} {x y : Nat} (hin : r.contains x y = true) (hcaption : r.captionAt x y = true)
    (hsize : 1 ≤ r.capSize) : r.captionRow y < 16 ∧ ∃ dy, dy < r.capSize ∧
      (r.capPlace = .top → y = r.y + r.captionRow y * r.capSize + dy) ∧
      (r.capPlace = .bottom → y + 16 * r.capSize = r.y + r.h + r.captionRow y * r.capSize + dy) := by
  obtain ⟨-, -, htop, hbottom⟩ := (captionAt_iff hin).mp hcaption
  obtain ⟨-, -, hy, hy'⟩ := (contains_iff r x y).mp hin
  cases hplace : r.capPlace with
  | top =>
    have hlow := htop hplace
    have hsplit := offset_split (y - r.y) r.capSize
    rw [captionRow_of_top hplace]
    refine ⟨(Nat.div_lt_iff_lt_mul hsize).mpr (by omega), (y - r.y) % r.capSize, Nat.mod_lt _ hsize, fun _ => by omega,
      fun h => (nomatch h)⟩
  | bottom =>
    have hlow := hbottom hplace
    have hsplit := offset_split (y + 16 * r.capSize - (r.y + r.h)) r.capSize
    rw [captionRow_of_bottom hplace]
    refine ⟨(Nat.div_lt_iff_lt_mul hsize).mpr (by omega), (y + 16 * r.capSize - (r.y + r.h)) % r.capSize,
      Nat.mod_lt _ hsize, fun h => (nomatch h), fun _ => by omega⟩

theorem captionColour_eq (r : WinRec) (glyphs : Table Glyph 128) (x y : Nat) {g : Fin 32} {row : Fin 16} {col : Nat}
    (hg : (x - r.x) / (12 * r.capSize) = g.val) (hrow : r.captionRow y = row.val)
    (hcol : (x - r.x) % (12 * r.capSize) / r.capSize = col) : r.captionColour glyphs x y =
      if ((glyphs.get (r.capText.get g)).get row).getLsbD (11 - col) = true then r.capFg else r.capBg := by
  rw [WinRec.captionColour, indexOf_of_val hg, hcol, glyphBit, indexOf_of_val hrow]

/-- R102: the character, the glyph column and row, and the place within a glyph pixel, of a caption pixel. -/
theorem captionColour_spec {r : WinRec} (glyphs : Table Glyph 128) {x y : Nat} (hin : r.contains x y = true)
    (hcaption : r.captionAt x y = true) (hsize : 1 ≤ r.capSize) (hlen : r.capLen ≤ 32) :
    ∃ (g : Fin 32) (col dx : Nat) (row : Fin 16) (dy : Nat), g.val < r.capLen ∧ col < 12 ∧ dx < r.capSize ∧ dy < r.capSize ∧
      x = r.x + (12 * g.val + col) * r.capSize + dx ∧
      (r.capPlace = .top → y = r.y + row.val * r.capSize + dy) ∧
      (r.capPlace = .bottom → y + 16 * r.capSize = r.y + r.h + row.val * r.capSize + dy) ∧
      r.captionColour glyphs x y =
        if ((glyphs.get (r.capText.get g)).get row).getLsbD (11 - col) = true then r.capFg else r.capBg := by
  obtain ⟨-, hx, -, -⟩ := (captionAt_iff hin).mp hcaption
  obtain ⟨hx', -, -, -⟩ := (contains_iff r x y).mp hin
  obtain ⟨hrow, dy, hdy, htop, hbottom⟩ := captionRow_spec hin hcaption hsize
  have hwide : 0 < 12 * r.capSize := by omega
  have hg : (x - r.x) / (12 * r.capSize) < r.capLen := (Nat.div_lt_iff_lt_mul hwide).mpr (by
    rw [Nat.mul_comm r.capLen]
    omega)
  have hcol : (x - r.x) % (12 * r.capSize) / r.capSize < 12 :=
    (Nat.div_lt_iff_lt_mul hsize).mpr (Nat.mod_lt _ hwide)
  refine ⟨⟨(x - r.x) / (12 * r.capSize), by omega⟩, (x - r.x) % (12 * r.capSize) / r.capSize,
    (x - r.x) % (12 * r.capSize) % r.capSize, ⟨r.captionRow y, hrow⟩, dy, hg, hcol, Nat.mod_lt _ hsize, hdy, ?_, htop, hbottom,
    captionColour_eq r glyphs x y rfl rfl rfl⟩
  have houter := offset_split (x - r.x) (12 * r.capSize)
  have hinner := offset_split ((x - r.x) % (12 * r.capSize)) r.capSize
  dsimp only
  rw [Nat.add_mul, Nat.mul_right_comm, Nat.mul_comm (12 * r.capSize)]
  omega

/-! ### Borders (R104 to R106) -/

theorem borderAt_iff {r : WinRec} {x y : Nat} (hin : r.contains x y = true) : r.borderAt x y = true ↔
    (1 ≤ r.borderWidth ∧ (x < r.x + r.borderWidth ∨ r.x + r.w ≤ x + r.borderWidth ∨
      y < r.y + r.borderWidth ∨ r.y + r.h ≤ y + r.borderWidth)) := by
  obtain ⟨hx, hx', hy, hy'⟩ := (contains_iff r x y).mp hin
  simp only [WinRec.borderAt, Bool.and_eq_true, Bool.or_eq_true, decide_eq_true_eq, or_assoc]
  omega

theorem borderColour_eq (r : WinRec) (w : WinState) (t : Tracker) (feed : Option (Fin 32)) (n : BitVec 32) (flash : Nat) :
    borderColour r w (t.stateOf feed) (flashOn n flash) =
      if w.highlight ≠ .off ∧ n.toNat / 2 ^ flash % 2 = 0 then r.alarm
      else if ∃ k, feed = some k ∧ ((t.states.get k).state = .stalled ∨ (t.states.get k).state = .lost) then r.stale
      else r.border := by
  have hflash : flashOn n flash = true ↔ n.toNat / 2 ^ flash % 2 = 0 := decide_eq_true_iff
  have hstale : (t.stateOf feed = some .stalled ∨ t.stateOf feed = some .lost) ↔
      ∃ k, feed = some k ∧ ((t.states.get k).state = .stalled ∨ (t.states.get k).state = .lost) := by
    cases feed <;> simp [Tracker.stateOf]
  simp only [borderColour, hflash, hstale]

/-! ### Content (R107 to R109) -/

theorem contentColour_of_blanked {s : State} {n : Fin 32} (x y : Nat) (h : (s.scene.wins.get n).blank ≠ .off) :
    s.contentColour n x y = (s.scene.active.get n).fill := if_pos h

theorem contentColour_of_solid {s : State} {n : Fin 32} (x y : Nat) (h : (s.scene.active.get n).mode = .solid) :
    s.contentColour n x y = (s.scene.active.get n).fill := by
  simp only [State.contentColour, h, ite_self]

theorem contentColour_of_pattern {s : State} {n : Fin 32} (x y : Nat) (hblank : (s.scene.wins.get n).blank = .off)
    (h : (s.scene.active.get n).mode = .pattern) : s.contentColour n x y =
      barColour (8 * (x - (s.scene.active.get n).x) / (s.scene.active.get n).w) := by
  simp [State.contentColour, h, hblank]

theorem contentColour_of_picture {s : State} {n : Fin 32} (x y : Nat) (hblank : (s.scene.wins.get n).blank = .off)
    (h : (s.scene.active.get n).mode = .live ∨ (s.scene.active.get n).mode = .freeze) :
    s.contentColour n x y = s.pictureColour n x y := by
  rcases h with h | h <;> simp [State.contentColour, h, hblank]

theorem beyondExtent_iff (src : SourceRec) (p : Nat × Nat) : beyondExtent src p = true ↔ (src.sw ≤ p.1 ∨ src.sh ≤ p.2) := by
  simp [beyondExtent]

/-- R108: without a source or a shown picture a window shows its fill. -/
theorem pictureColour_of_unfed {s : State} {n : Fin 32} (x y : Nat)
    (h : (s.scene.active.get n).feed (s.scene.wins.get n).tourSource = none ∨
      ∀ b ∈ (s.store.wins.get n).bufs, b.role = .showing → b.mark = false) :
    s.pictureColour n x y = (s.scene.active.get n).fill := by
  unfold State.pictureColour
  dsimp only
  split
  next b src v hb hsrc hv =>
    rcases h with h | h
    · rw [h] at hsrc
      cases hsrc
    · have hshown : b.role = .showing := by simpa using List.find?_some hb
      rw [if_pos (h b (List.mem_of_find?_eq_some hb) hshown)]
  next => rfl

/-- R108: a shown picture, with the fill in its place beyond the source and for a LOST source. -/
theorem pictureColour_of_shown {s : State} {n k : Fin 32} {v : VisRect} {b : Buffer} (x y : Nat)
    (hfeed : (s.scene.active.get n).feed (s.scene.wins.get n).tourSource = some k)
    (hv : visibleRect s.timer.setup.geo (s.scene.active.get n) = some v)
    (hb : (s.store.wins.get n).bufs.filter (fun b => b.role = .showing) = [b]) (hmark : b.mark = true) :
    s.pictureColour n x y =
      if beyondExtent (s.src.records.get k) (mapPixel (s.scene.active.get n)
          (effectiveCrop (s.scene.active.get n) (s.src.records.get k)) (x - (s.scene.active.get n).x)
          (y - (s.scene.active.get n).y)) = true then (s.scene.active.get n).fill
      else if (s.src.states.get k).state = .lost ∧ (s.scene.active.get n).loss = .fill then (s.scene.active.get n).fill
      else (s.store.mem.readStore b.pages ((y - v.y0) * v.w + (x - v.x0))).getD (s.scene.active.get n).fill := by
  have hshowing : (s.store.wins.get n).showing? = some b := by
    rw [WinStore.showing?, ← List.head?_filter]
    exact congrArg List.head? hb
  unfold State.pictureColour
  dsimp only
  rw [hshowing, hfeed, hv]
  exact if_neg (by rw [hmark]; decide)

/-- Settles O49: the supplying window by `supplier_of_front`, then caption, border and content by their rules. -/
theorem frontmostWindowSupplies : Obligations.FrontmostWindowSupplies := by
  unfold Obligations.FrontmostWindowSupplies
  refine ⟨fun s x y front back n r feed hlist hr hmode hin hfront hfeed => ?_, fun s x y h =>
    wallColour_of_none (supplier_of_none h), fun bar hbar => by interval_cases bar <;> rfl⟩
  subst hr
  have hwall := wallColour_of_supplier (supplier_of_front hlist hmode hin hfront)
  have hfeed' : (s.scene.active.get n).feed (s.scene.wins.get n).tourSource = feed := by
    rw [hfeed, WinRec.feed]
    simp only [WinRec.tours_iff]
  have hcaption : (s.scene.active.get n).captionAt x y = true →
      s.wallColour x y = (s.scene.active.get n).captionColour s.comp.glyphs x y := fun h => hwall.trans (if_pos h)
  have hborderColour : (s.scene.active.get n).captionAt x y = false → (s.scene.active.get n).borderAt x y = true → s.wallColour x y =
      borderColour (s.scene.active.get n) (s.scene.wins.get n) (s.src.stateOf feed) (flashOn s.timer.wallN s.timer.setup.flash) :=
    fun h hb => by
      rw [hwall, State.windowColour, h, hb, hfeed']
      rfl
  have hcontent : (s.scene.active.get n).captionAt x y = false → (s.scene.active.get n).borderAt x y = false →
      s.wallColour x y = s.contentColour n x y := fun h hb => by
    rw [hwall, State.windowColour, h, hb]
    rfl
  refine ⟨hcaption, captionAt_iff hin, borderAt_iff hin, fun h hsize hlen => ?_, fun hcap hborder => ?_, fun hcap hborder => ?_⟩
  · rw [hcaption h]
    exact captionColour_spec s.comp.glyphs hin h hsize hlen
  · rw [hborderColour hcap hborder]
    exact borderColour_eq _ _ _ _ _ _
  · rw [hcontent hcap hborder]
    refine ⟨fun h => h.elim (contentColour_of_blanked x y) (contentColour_of_solid x y), contentColour_of_pattern x y,
      fun hblank hmode => ?_⟩
    rw [contentColour_of_picture x y hblank hmode]
    refine ⟨fun h => pictureColour_of_unfed x y (by rw [hfeed']; exact h), fun k v b p hk hv hb hmark hp => ?_⟩
    rw [pictureColour_of_shown x y (hfeed'.trans hk) hv hb hmark, ← hp]
    simp only [beyondExtent_iff]
    rw [← ite_or]
    simp only [or_assoc]

end Sys2Proof.Machine
end

section
/-! The records of the tables and READ (R154, R155, R157, Tables 10-1, 11-4 and 11-5). -/

namespace Sys2Proof.Machine

/-! ### Bytes of records -/

theorem byte_toNat_of_lt {n : Nat} (h : n < 256) : (byte n).toNat = n := by rw [byte_toNat, Nat.mod_eq_of_lt h]

theorem bytesNat_word (n : Nat) : bytesNat [byte (n / 256), byte n] = n % 65536 := by
  rw [← natBytes_two]
  exact bytesNat_natBytes 2 n

theorem signedNat_word (z : Int) : ((signedNat 16 z % 65536 : Nat) : Int) = z % 65536 := by
  rw [signedNat]
  omega

theorem byte_signedNat (z : Int) : ((byte (signedNat 8 z)).toNat : Int) = z % 256 := by
  rw [byte_toNat, signedNat]
  omega

theorem numberByte_some (k : Fin 32) : (numberByte (some k)).toNat = k.val := byte_toNat_of_lt (by omega)

theorem indexOf_val_self {n : Nat} [NeZero n] (i : Fin n) : indexOf n i.val = i := Fin.ofNat_val_eq_self i

/-- Reading at or after a part of a record goes on in what follows it. -/
theorem byteAt_append_of_eq {l m : List Byte} {i k : Nat} (h : i = l.length + k) : byteAt (l ++ m) i = byteAt m k := by
  rw [byteAt_append_right (by omega), h, Nat.add_sub_cancel_left]

theorem field_append_of_eq {l m : List Byte} {i j k : Nat} (h : i = l.length + j) : field (l ++ m) i k = field m j k := by
  rw [field, field, h, List.drop_append, List.drop_of_length_le (by omega), List.nil_append, Nat.add_sub_cancel_left]

theorem byteAt_padTo {k i : Nat} (h : i < k) (l : List Byte) : byteAt (padTo k l) i = byteAt l i := by
  rcases Nat.lt_or_ge i l.length with hi | hi
  · have hlen : i < (l.take k).length := by rw [List.length_take]; omega
    rw [padTo, byteAt_append_left hlen]
    simp [byteAt, List.getD_eq_getElem?_getD, h]
  · rw [padTo, byteAt_append_right (by rw [List.length_take]; omega), byteAt_replicate_zero, byteAt_of_le hi]

/-! ### STACK and ACTIVE_STACK (R6, Table 11-5) -/

theorem ListOf.length_le {t : Table WinRec 32} {l : List (Fin 32)} (h : ListOf t l) : l.length ≤ 32 := by
  obtain ⟨hnodup, -⟩ := h
  simpa using hnodup.length_le_card

theorem listRecord_length {l : List (Fin 32)} (h : l.length ≤ 32) : (listRecord l).length = 33 := by
  simp only [listRecord, List.length_cons, List.length_append, List.length_map, List.length_replicate]
  omega

/-- Table 11-5: the count of a list, its windows from the front on, and 255 beyond, whatever the last three bytes hold. -/
theorem listRecord_spec {l : List (Fin 32)} (h : l.length ≤ 32) (a b c : Byte) :
    ListRecord l (listRecord l ++ [a, b, c]) := by
  have hlen := listRecord_length h
  have hwin : ∀ i, i < 32 → byteAt (listRecord l ++ [a, b, c]) (1 + i) =
      byteAt (l.map (fun n => byte n.val) ++ List.replicate (32 - l.length) 255) i := fun i hi => by
    rw [byteAt_append_left (by omega), Nat.add_comm]
    rfl
  refine ⟨by simp [hlen], byte_toNat_of_lt (by omega), fun i n hn => ?_, fun i hi hlt => ?_⟩
  · obtain ⟨hi, rfl⟩ := List.getElem?_eq_some_iff.mp hn
    rw [hwin i (by omega), byteAt_append_left (by simpa using hi)]
    simp [byteAt, hi, byte_toNat]
    omega
  · rw [hwin i hlt, byteAt_append_right (by simpa using hi), List.length_map]
    simp [byteAt, List.getD_eq_getElem?_getD, show i - l.length < 32 - l.length by omega]

/-- The last three bytes after a stacking list. -/
theorem listRecord_tail {l : List (Fin 32)} (h : l.length ≤ 32) (a b c : Byte) :
    byteAt (listRecord l ++ [a, b, c]) 33 = a ∧ byteAt (listRecord l ++ [a, b, c]) 34 = b ∧
    byteAt (listRecord l ++ [a, b, c]) 35 = c := by
  have hlen := listRecord_length h
  exact ⟨byteAt_append_of_eq (k := 0) (by omega), byteAt_append_of_eq (k := 1) (by omega),
    byteAt_append_of_eq (k := 2) (by omega)⟩

/-- The mask of the valid presets in byte 35 of STACK. -/
def presetMask (valid : Fin 4 → Bool) : Byte :=
  byte ((List.range 4).foldl (fun acc p => acc + (if valid (indexOf 4 p) then 2 ^ p else 0)) 0)

theorem presetMask_spec (valid : Fin 4 → Bool) :
    (presetMask valid).toNat < 16 ∧ ∀ p : Fin 4, (presetMask valid).getLsbD p.val = valid p := by
  have hbits : ∀ a b c d : Bool, ∀ m : Byte, m = byte (0 + (if a then 1 else 0) + (if b then 2 else 0) +
      (if c then 4 else 0) + (if d then 8 else 0)) →
      m.toNat < 16 ∧ m.getLsbD 0 = a ∧ m.getLsbD 1 = b ∧ m.getLsbD 2 = c ∧ m.getLsbD 3 = d := by decide
  obtain ⟨hlt, h0, h1, h2, h3⟩ := hbits (valid 0) (valid 1) (valid 2) (valid 3) (presetMask valid) rfl
  refine ⟨hlt, fun p => ?_⟩
  match p with
  | 0 => exact h0
  | 1 => exact h1
  | 2 => exact h2
  | 3 => exact h3

theorem stackRecord_eq (s : State) : s.stackRecord = listRecord s.scene.shadowList ++
    [yesNo s.scene.commitPending, yesNo s.scene.recallNote, presetMask fun p => (s.scene.presets.get p).valid] := rfl

/-! ### The sizes of the records -/

theorem colourBytes_length (c : Colour) : (colourBytes c).length = 4 := rfl

theorem glyphPack_length (g : Glyph) : (glyphPack g).length = 32 := by
  simp [glyphPack, List.length_flatMap, g.len]

theorem Cue.pack_length (c : Cue) : c.pack.length = 12 := by simp [Cue.pack]

theorem WinRec.pack_length (r : WinRec) : r.pack.length = 80 := by simp [WinRec.pack, colourBytes_length]

theorem windowStateRecord_length (s : State) (n : Fin 32) : (s.windowStateRecord n).length = 40 := by
  simp [State.windowStateRecord, padTo_length]

theorem record_length {s : State} (h : ListsLegal s) (t : TableId) (i : Nat) (ht : t ≠ .cues) :
    (s.record t i).length = t.recordSize := by
  obtain ⟨hshadow, hactive, -⟩ := h
  cases t with
  | cues => exact absurd rfl ht
  | setup => simp [State.record, Setup.pack, colourBytes_length, TableId.recordSize]
  | origins => rfl
  | sources => simp [State.record, SourceRec.pack, TableId.recordSize]
  | windows => exact WinRec.pack_length _
  | active => exact WinRec.pack_length _
  | stack => simp [State.record, State.stackRecord, listRecord_length hshadow.length_le, TableId.recordSize]
  | activeStack => simp [State.record, listRecord_length hactive.length_le, TableId.recordSize]
  | glyphs => exact glyphPack_length _
  | triggers => rfl
  | sourceState => simp [State.record, State.sourceStateRecord, TableId.recordSize]
  | windowState => exact windowStateRecord_length _ _
  | counters => simp [State.record, State.countersRecord, TableId.recordSize]

/-! ### SOURCE_STATE, WINDOW_STATE and COUNTERS (R59, R12, R32, R93, R121, R152) -/

/-- The entries of a list packed one after the other, each in `k` bytes. -/
theorem byteAt_flatMap {α : Type} {f : α → List Byte} {k : Nat} (hf : ∀ a, (f a).length = k) {l : List α} {i j : Nat} {a : α}
    (ha : l[i]? = some a) (hj : j < k) : byteAt (l.flatMap f) (k * i + j) = byteAt (f a) j := by
  induction l generalizing i with
  | nil => cases ha
  | cons b l ih =>
    rw [List.flatMap_cons]
    cases i with
    | zero =>
      cases ha
      rw [Nat.mul_zero, Nat.zero_add, byteAt_append_left (by rw [hf]; exact hj)]
    | succ i => rw [byteAt_append_of_eq (k := k * i + j) (by rw [hf, Nat.mul_succ]; omega), ih (by simpa using ha)]

/-- R93: the buffers of a window in the order of its record, in 4 bytes each. -/
def State.bufferEntries (s : State) (n : Fin 32) (listed : List Buffer) : List Byte :=
  listed.zipIdx.flatMap fun p => s.bufferEntry (3 * n.val + p.2) p.1

theorem bufferEntries_length (s : State) (n : Fin 32) (listed : List Buffer) :
    (s.bufferEntries n listed).length = 4 * listed.length := by
  simp [State.bufferEntries, List.length_flatMap, State.bufferEntry, Nat.mul_comm]

theorem byteAt_bufferEntries {s : State} {n : Fin 32} {listed : List Buffer} {i j : Nat} {b : Buffer}
    (hb : listed[i]? = some b) (hj : j < 4) :
    byteAt (s.bufferEntries n listed) (4 * i + j) = byteAt (s.bufferEntry (3 * n.val + i) b) j := by
  have hentry : listed.zipIdx[i]? = some (b, i) := by simp [List.getElem?_zipIdx, hb]
  exact byteAt_flatMap (f := fun p : Buffer × Nat => s.bufferEntry (3 * n.val + p.2) p.1) (fun _ => rfl) hentry hj

/-- The first 14 bytes of the WINDOW_STATE record. -/
def State.windowStateHead (s : State) (n : Fin 32) : List Byte :=
  let w := s.store.wins.get n
  let v := (visibleRect s.timer.setup.geo (s.scene.active.get n)).getD ⟨0, 0, 0, 0⟩
  natBytes 2 v.x0 ++ natBytes 2 v.y0 ++ natBytes 2 v.w ++ natBytes 2 v.h
  ++ natBytes 2 (pagesPerBuffer v) ++ natBytes 2 (w.bufs.length * pagesPerBuffer v)
  ++ [byte w.bufs.length, numberByte w.feeding]

/-- The last 14 bytes of the WINDOW_STATE record. -/
def State.windowStateTail (s : State) (n : Fin 32) : List Byte :=
  let w := s.store.wins.get n
  let a := s.scene.wins.get n
  natBytes 2 w.shown ++ natBytes 2 w.dropped ++ natBytes 2 w.repeated
  ++ [byte a.blank.code, byte a.highlight.code,
      byte (2 * a.blankClear.toNat + a.highlightClear.toNat), numberByte a.tourSource]
  ++ natBytes 4 a.epoch.toNat

theorem windowStateRecord_eq (s : State) (n : Fin 32) : s.windowStateRecord n =
    s.windowStateHead n ++ (padTo 12 (s.bufferEntries n (s.store.wins.get n).listed) ++ s.windowStateTail n) := by
  simp only [State.windowStateRecord, State.windowStateHead, State.windowStateTail, State.bufferEntries, List.append_assoc]

theorem byteAt_windowStateBuffers {s : State} {n : Fin 32} {j : Nat} (h : j < 12) :
    byteAt (s.windowStateRecord n) (14 + j) = byteAt (s.bufferEntries n (s.store.wins.get n).listed) j := by
  have hhead : 14 + j = (s.windowStateHead n).length + j := rfl
  rw [windowStateRecord_eq, byteAt_append_of_eq hhead,
    byteAt_append_left (by rw [padTo_length]; exact h),
    byteAt_padTo h]

theorem byteAt_windowStateTail (s : State) (n : Fin 32) (i : Nat) :
    byteAt (s.windowStateRecord n) (26 + i) = byteAt (s.windowStateTail n) i := by
  rw [windowStateRecord_eq, byteAt_append_of_eq (k := 12 + i) (Nat.add_assoc 14 12 i),
    byteAt_append_of_eq (k := i) (by rw [padTo_length])]

theorem field_windowStateTail (s : State) (n : Fin 32) (i k : Nat) :
    field (s.windowStateRecord n) (26 + i) k = field (s.windowStateTail n) i k := by
  rw [windowStateRecord_eq, field_append_of_eq (j := 12 + i) (Nat.add_assoc 14 12 i),
    field_append_of_eq (j := i) (by rw [padTo_length])]

theorem clearsByte_spec (b h : Bool) : (byte (2 * b.toNat + h.toNat)).getLsbD 1 = b ∧
    (byte (2 * b.toNat + h.toNat)).getLsbD 0 = h ∧ (byte (2 * b.toNat + h.toNat)).toNat < 4 := by
  cases b <;> cases h <;> decide

/-! ### READ (R157) -/

theorem judge_read {s : State} {c : Control} {t : TableId} (hcommand : c.command = 1) (ht : TableId.ofCode c.table = some t) :
    s.judge c = s.read t c.index c.count := by
  rw [judge_open (k := .read) (by rw [hcommand]; rfl) (by rw [ht]; rfl) (Bool.and_false _), ht]
  rfl

theorem read_of_range {s : State} {t : TableId} {index : Nat} (count : Nat) (h : t.records ≤ index) :
    s.read t index count = (s, Answer.plain .range) := if_pos h

theorem read_of_lt {s : State} {t : TableId} {index : Nat} (count : Nat) (h : index < t.records) :
    s.read t index count = ({ s with freeIdx := s.freeIdx + 1 },
      ⟨.ok, (s.readIndices t index count).length, 0, 0, (s.readIndices t index count).flatMap (s.record t)⟩) :=
  if_neg (by omega)

theorem readIndices_of_ne_cues (s : State) {t : TableId} (index count : Nat) (ht : t ≠ .cues) :
    s.readIndices t index count =
      (List.range (min count (240 / t.recordSize))).map fun j => (index + j) % t.records := by
  cases t <;> first | rfl | exact absurd rfl ht

theorem readIndices_cues (s : State) (index count : Nat) : s.readIndices .cues index count =
    (List.range (min (min count 20) (s.cues.queue.length - index))).map (index + ·) := by
  have hspan : min (index + min count 20) s.cues.queue.length - index =
      min (min count 20) (s.cues.queue.length - index) := by omega
  rw [← hspan]
  rfl

/-- A list's entries taken one by one. -/
theorem flatMap_range_length {α β : Type} (l : List α) (f : α → List β) :
    (List.range l.length).flatMap (fun j => (l[j]?).elim [] f) = l.flatMap f := by
  induction l with
  | nil => rfl
  | cons a l ih =>
    rw [List.length_cons, List.range_succ_eq_map, List.flatMap_cons, List.flatMap_map, List.flatMap_cons, ← ih]
    rfl

/-- A list's entries from `index` on, taken one by one. -/
theorem flatMap_range_drop {α β : Type} (l : List α) (f : α → List β) (index k : Nat) :
    ((List.range (min k (l.length - index))).map (index + ·)).flatMap (fun i => (l[i]?).elim [] f) =
      ((l.drop index).take k).flatMap f := by
  have hlen : ((l.drop index).take k).length = min k (l.length - index) := by simp
  rw [← flatMap_range_length ((l.drop index).take k), hlen, List.flatMap_map]
  refine List.flatMap_congr fun j hj => ?_
  have hj : j < min k (l.length - index) := List.mem_range.mp hj
  rw [List.getElem?_take_of_lt (by omega), List.getElem?_drop]

/-- R157: the records of a READ in range, of a table other than CUES. -/
theorem read_table {s : State} {t : TableId} {index : Nat} (count : Nat) (h : index < t.records) (ht : t ≠ .cues) :
    (s.read t index count).2.count = min count (240 / t.recordSize) ∧
    (s.read t index count).2.records =
      (List.range (min count (240 / t.recordSize))).flatMap fun j => s.record t ((index + j) % t.records) := by
  rw [read_of_lt count h, readIndices_of_ne_cues s index count ht]
  exact ⟨by simp, by rw [List.flatMap_map]⟩

/-- R157: the cues of a READ in range. -/
theorem read_cues {s : State} {index : Nat} (count : Nat) (h : index < TableId.cues.records) :
    (s.read .cues index count).2.count = min (min count 20) (s.cues.queue.length - index) ∧
    (s.read .cues index count).2.records = ((s.cues.queue.drop index).take (min count 20)).flatMap Cue.pack := by
  rw [read_of_lt count h, readIndices_cues]
  exact ⟨by simp, flatMap_range_drop s.cues.queue Cue.pack index (min count 20)⟩

/-- R154: the records of a READ fit in a payload. -/
theorem read_records_length {s : State} (hlegal : ListsLegal s) (t : TableId) (index count : Nat) :
    (s.read t index count).2.records.length ≤ 240 := by
  rcases Nat.lt_or_ge index t.records with h | h
  · by_cases ht : t = .cues
    · subst ht
      rw [(read_cues count h).2, List.length_flatMap, List.map_congr_left fun c _ => Cue.pack_length c, List.map_const',
        List.sum_replicate, List.length_take]
      simp only [smul_eq_mul]
      omega
    · rw [(read_table count h ht).2, List.length_flatMap,
        List.map_congr_left fun j _ => record_length hlegal t _ ht, List.map_const', List.sum_replicate, List.length_range]
      calc min count (240 / t.recordSize) * t.recordSize
          ≤ 240 / t.recordSize * t.recordSize := Nat.mul_le_mul_right _ (Nat.min_le_right _ _)
        _ ≤ 240 := Nat.div_mul_le_self _ _
  · rw [read_of_range count h]
    exact Nat.zero_le _

/-! ### The obligation -/

theorem sourceStateRecord_spec (s : State) (n : Fin 32) (r : List Byte) (k : SourceTrack)
    (hr : r = s.sourceStateRecord n) (hk : k = s.src.states.get n) :
    byteAt r 0 = byte k.state.code ∧
    byteAt r 1 = yesNo k.frameOpen ∧ byteAt r 2 = yesNo k.tag.isSome ∧ (∀ tag, k.tag = some tag → byteAt r 3 = tag) ∧
    field r 4 4 = k.accepted % 2 ^ 32 ∧ field r 8 2 = k.lastLine % 65536 ∧ (byteAt r 10).toNat = k.lastSegment % 256 ∧
    (byteAt r 11).toNat = k.lastStarts % 256 ∧ field r 12 2 = k.sinceStart % 65536 ∧
    field r 14 2 = k.startPhase % 65536 ∧ field r 16 2 = k.completed % 65536 ∧ field r 18 2 = k.rejected % 65536 ∧
    field r 20 2 = k.discarded % 65536 ∧ field r 22 2 = k.sequence % 65536 := by
  subst hk hr
  refine ⟨rfl, rfl, rfl, fun tag htag => ?_, bytesNat_natBytes 4 _, bytesNat_natBytes 2 _, byte_toNat _, byte_toNat _,
    bytesNat_natBytes 2 _, bytesNat_natBytes 2 _, bytesNat_natBytes 2 _, bytesNat_natBytes 2 _, bytesNat_natBytes 2 _,
    bytesNat_natBytes 2 _⟩
  exact congrArg (fun t : Option Byte => t.getD (s.tagFree n.val)) htag

/-- R93: the buffers of the record, in its order. -/
theorem windowStateRecord_buffers {s : State} {n : Fin 32} {listed : List Buffer} (hlisted : listed = (s.store.wins.get n).listed)
    {r : List Byte} (hr : r = s.windowStateRecord n) :
    (∀ (i : Nat) (b : Buffer), i < 3 → listed[i]? = some b →
      byteAt r (14 + 4 * i) = byte b.role.code ∧ byteAt r (15 + 4 * i) = byte b.role.armCode ∧
      (∀ tag, b.role = .filling (.writing tag) → byteAt r (16 + 4 * i) = tag) ∧ byteAt r (17 + 4 * i) = yesNo b.mark) ∧
    (∀ j, 4 * listed.length ≤ j → j < 12 → byteAt r (14 + j) = 0) := by
  subst hlisted hr
  refine ⟨fun i b hi hb => ?_, fun j hj hlt => ?_⟩
  · have hentry : ∀ k j, j < 4 → k = 14 + (4 * i + j) →
        byteAt (s.windowStateRecord n) k = byteAt (s.bufferEntry (3 * n.val + i) b) j := fun k j hj hk => by
      rw [hk, byteAt_windowStateBuffers (by omega), byteAt_bufferEntries hb hj]
    rw [hentry (14 + 4 * i) 0 (by omega) (by omega), hentry (15 + 4 * i) 1 (by omega) (by omega),
      hentry (16 + 4 * i) 2 (by omega) (by omega), hentry (17 + 4 * i) 3 (by omega) (by omega)]
    refine ⟨rfl, rfl, fun tag htag => ?_, rfl⟩
    rw [State.bufferEntry, htag]
    rfl
  · rw [byteAt_windowStateBuffers hlt, byteAt_of_le (by rw [bufferEntries_length]; exact hj)]

/-- The bytes of the COUNTERS record one by one. -/
theorem countersRecord_eq (s : State) : s.countersRecord = [byte s.ring.link.code, byte s.ring.runCount,
    byte (s.ring.cellsReceived / 256), byte s.ring.cellsReceived, byte (s.ring.checkErrors / 256), byte s.ring.checkErrors,
    byte (s.ring.alignLosses / 256), byte s.ring.alignLosses, byte (s.ring.controlTaken / 256), byte s.ring.controlTaken,
    byte (s.ring.repliesDropped / 256), byte s.ring.repliesDropped, byte s.timer.lock.code, boolByte s.timer.pendSetup.isSome,
    byte (signedNat 16 s.timer.lastPhase / 256), byte (signedNat 16 s.timer.lastPhase), byte (signedNat 8 s.timer.trim),
    byte s.timer.good, byte s.timer.bad, 0, byte (s.timer.frameLen / 256), byte s.timer.frameLen,
    byte (s.timer.missed / 256), byte s.timer.missed, byte (s.timer.startCount / 256), byte s.timer.startCount,
    byte (s.timer.slip / 256), byte s.timer.slip] := by
  simp only [State.countersRecord, natBytes_two, List.cons_append, List.nil_append]

theorem countersRecord_bytes (s : State) : byteAt s.countersRecord 0 = byte s.ring.link.code ∧
    byteAt s.countersRecord 1 = byte s.ring.runCount ∧ byteAt s.countersRecord 12 = byte s.timer.lock.code ∧
    byteAt s.countersRecord 13 = yesNo s.timer.pendSetup.isSome ∧
    byteAt s.countersRecord 16 = byte (signedNat 8 s.timer.trim) ∧ byteAt s.countersRecord 17 = byte s.timer.good ∧
    byteAt s.countersRecord 18 = byte s.timer.bad ∧ byteAt s.countersRecord 19 = 0 := by
  rw [countersRecord_eq]
  exact ⟨rfl, rfl, rfl, rfl, rfl, rfl, rfl, rfl⟩

theorem countersRecord_fields (s : State) : field s.countersRecord 2 2 = s.ring.cellsReceived % 65536 ∧
    field s.countersRecord 4 2 = s.ring.checkErrors % 65536 ∧ field s.countersRecord 6 2 = s.ring.alignLosses % 65536 ∧
    field s.countersRecord 8 2 = s.ring.controlTaken % 65536 ∧ field s.countersRecord 10 2 = s.ring.repliesDropped % 65536 ∧
    field s.countersRecord 14 2 = signedNat 16 s.timer.lastPhase % 65536 ∧
    field s.countersRecord 20 2 = s.timer.frameLen % 65536 ∧ field s.countersRecord 22 2 = s.timer.missed % 65536 ∧
    field s.countersRecord 24 2 = s.timer.startCount % 65536 ∧ field s.countersRecord 26 2 = s.timer.slip % 65536 := by
  rw [countersRecord_eq]
  exact ⟨bytesNat_word _, bytesNat_word _, bytesNat_word _, bytesNat_word _, bytesNat_word _, bytesNat_word _, bytesNat_word _,
    bytesNat_word _, bytesNat_word _, bytesNat_word _⟩

/-- Table 11-5: the geometry, the pages and the feeding source of WINDOW_STATE. -/
theorem windowStateHead_spec {s : State} {n : Fin 32} {w : WinStore} {v : VisRect} (hw : w = s.store.wins.get n)
    (hv : v = (visibleRect s.timer.setup.geo (s.scene.active.get n)).getD ⟨0, 0, 0, 0⟩) {r : List Byte}
    (hr : r = s.windowStateRecord n) :
    field r 0 2 = v.x0 % 65536 ∧ field r 2 2 = v.y0 % 65536 ∧ field r 4 2 = v.w % 65536 ∧ field r 6 2 = v.h % 65536 ∧
    field r 8 2 = pagesPerBuffer v % 65536 ∧ field r 10 2 = w.bufs.length * pagesPerBuffer v % 65536 ∧
    byteAt r 12 = byte w.bufs.length ∧ byteAt r 13 = numberByte w.feeding := by
  rw [hr, windowStateRecord_eq, State.windowStateHead, ← hw, ← hv]
  simp only [natBytes_two, List.cons_append, List.nil_append]
  exact ⟨bytesNat_word _, bytesNat_word _, bytesNat_word _, bytesNat_word _, bytesNat_word _, bytesNat_word _, rfl, rfl⟩

/-- Table 11-5: the counts and the window states of WINDOW_STATE. -/
theorem windowStateTail_spec {s : State} {n : Fin 32} {w : WinStore} {a : WinState} (hw : w = s.store.wins.get n)
    (ha : a = s.scene.wins.get n) {r : List Byte} (hr : r = s.windowStateRecord n) :
    field r 26 2 = w.shown % 65536 ∧ field r 28 2 = w.dropped % 65536 ∧ field r 30 2 = w.repeated % 65536 ∧
    byteAt r 32 = byte a.blank.code ∧ byteAt r 33 = byte a.highlight.code ∧
    byteAt r 34 = byte (2 * a.blankClear.toNat + a.highlightClear.toNat) ∧ byteAt r 35 = numberByte a.tourSource ∧
    field r 36 4 = a.epoch.toNat := by
  subst hw ha hr
  have hbyte := byteAt_windowStateTail s n
  have hfield := field_windowStateTail s n
  exact ⟨(hfield 0 2).trans (bytesNat_natBytes 2 _), (hfield 2 2).trans (bytesNat_natBytes 2 _),
    (hfield 4 2).trans (bytesNat_natBytes 2 _), hbyte 6, hbyte 7, hbyte 8, hbyte 9,
    ((hfield 10 4).trans (bytesNat_natBytes 4 _)).trans (Nat.mod_eq_of_lt (s.scene.wins.get n).epoch.isLt)⟩

/-- Settles O22: READ by `read_table` and `read_cues`, the records by their layout. -/
theorem readReturnsRecords : Obligations.ReadReturnsRecords := by
  unfold Obligations.ReadReturnsRecords
  refine ⟨fun s c t hcommand ht => judge_read hcommand ht, fun s t i hlegal ht => record_length hlegal t i ht, by decide,
    fun s r hlegal hr => ?_, fun s r hlegal hr => ?_, fun s n r k hr hk => ?_,
    fun s n r w a v listed hr hw ha hv hlisted => ?_, fun s r g k hr hg hk => ?_,
    fun s t index count => ⟨fun h => read_of_range count h, fun h => ⟨?_, ?_, fun ht => read_table count h ht, ?_⟩⟩⟩
  · obtain ⟨hshadow, -⟩ := hlegal
    rw [show r = _ from hr.trans (stackRecord_eq s)]
    obtain ⟨h33, h34, h35⟩ := listRecord_tail hshadow.length_le (yesNo s.scene.commitPending) (yesNo s.scene.recallNote)
      (presetMask fun p => (s.scene.presets.get p).valid)
    rw [h33, h34, h35]
    exact ⟨listRecord_spec hshadow.length_le _ _ _, rfl, rfl, presetMask_spec _⟩
  · obtain ⟨-, hactive, -⟩ := hlegal
    subst hr
    exact ⟨listRecord_spec hactive.length_le 0 0 0, listRecord_tail hactive.length_le 0 0 0⟩
  · rw [State.record, indexOf_val_self] at hr
    obtain ⟨hstate, hrest⟩ := sourceStateRecord_spec s n r k hr hk
    refine ⟨?_, hrest⟩
    rw [hstate]
    cases k.state <;> rfl
  · rw [State.record, indexOf_val_self] at hr
    obtain ⟨hbuffers, hempty⟩ := windowStateRecord_buffers (n := n) (hlisted.trans (by rw [hw]; rfl)) hr
    obtain ⟨hx, hy, hwidth, hheight, hpages, hheld, hcount, hfeeding⟩ := windowStateHead_spec hw hv hr
    obtain ⟨hshown, hdropped, hrepeated, hblank, hhighlight, hclears, htour, hepoch⟩ := windowStateTail_spec hw ha hr
    have hclear := clearsByte_spec a.blankClear a.highlightClear
    rw [← hclears] at hclear
    obtain ⟨hclearBlank, hclearHighlight, hclearLt⟩ := hclear
    refine ⟨hx, hy, hwidth, hheight, hpages, hheld, by rw [hcount, byte_toNat], fun k hk => ?_, fun hk => ?_,
      fun i b hi hb => ?_, hempty, hshown, hdropped, hrepeated, ?_, ?_, hclearBlank, hclearHighlight, hclearLt,
      fun k hk => ?_, fun hk => ?_, hepoch⟩
    · rw [hfeeding, hk, numberByte_some]
    · rw [hfeeding, hk]
      rfl
    · obtain ⟨hrole, harm, htag, hmark⟩ := hbuffers i b hi hb
      rw [hrole, harm]
      refine ⟨?_, ?_, htag, hmark⟩
      · cases b.role <;> rfl
      · rcases b.role with (_ | _) | _ | _ | _ <;> rfl
    · rw [hblank]
      cases a.blank <;> rfl
    · rw [hhighlight]
      cases a.highlight <;> rfl
    · rw [htour, hk, numberByte_some]
    · rw [htour, hk]
      rfl
  · subst hg hk
    have hr : r = s.countersRecord := hr
    subst hr
    obtain ⟨hlink, hrun, hlock, hpend, htrim, hgood, hbad, hspare⟩ := countersRecord_bytes s
    obtain ⟨hcells, hchecks, hlosses, htaken, hdropped, hphase, hlen, hmissed, hstart, hslip⟩ := countersRecord_fields s
    refine ⟨?_, by rw [hrun, byte_toNat], hcells, hchecks, hlosses, htaken, hdropped, ?_, hpend, ?_, ?_,
      by rw [hgood, byte_toNat], by rw [hbad, byte_toNat], hspare, hlen, hmissed, hstart, hslip⟩
    · rw [hlink]
      cases s.ring.link <;> rfl
    · rw [hlock]
      cases s.timer.lock <;> rfl
    · rw [hphase, signedNat_word]
    · rw [htrim, byte_signedNat]
  · rw [read_of_lt count h]
  · rw [read_of_lt count h]
  · rintro rfl
    exact read_cues count h

end Sys2Proof.Machine
end

section
/-! The reply of a command (R154, R148, Table 11-1). -/

namespace Sys2Proof.Machine

/-! ### What a command's work leaves of the ring -/

theorem workMove_replies {s t : State} (h : WorkMove s t) : t.ring.replies = s.ring.replies := by
  cases h with
  | outer t h => rw [h]
  | written t cls table i bytes h =>
    rcases writeRecord_cases h with ⟨-, n, r, -, -, -, rfl⟩ | ⟨-, n, r, -, rfl⟩ | ⟨-, r, -, rfl⟩ | ⟨-, j, g, rfl⟩ |
      ⟨-, j, r, rfl⟩ | ⟨-, j, g, rfl⟩ <;> rfl
  | zeroed => rfl
  | scene t h hmove => rw [h]
  | cueAdded => rfl
  | cuesRemoved t h => rw [h]
  | strobed t h => rw [h]

theorem judge_replies (s : State) (c : Control) : (s.judge c).1.ring.replies = s.ring.replies :=
  (judge_run s c).keeps (P := fun u => u.ring.replies = s.ring.replies) (fun _ _ hm h => (workMove_replies hm).trans h) rfl

/-! ### The records of a reply: those of a READ -/

theorem writeRecords_records (cls : OrigClass) (t : TableId) (k i : Nat) (bytes : List Byte) (done : Nat) (s : State) :
    (State.writeRecords cls t k i bytes done s).2.records = [] := by
  induction k generalizing i bytes done s with
  | zero => rfl
  | succ k ih =>
    simp only [State.writeRecords]
    split
    · exact ih _ _ _ _
    · rfl

theorem write_records (s : State) (cls : OrigClass) (t : TableId) (c : Control) : (s.write cls t c).2.records = [] := by
  unfold State.write
  split
  · rfl
  · split
    · rfl
    · split
      · rfl
      · exact writeRecords_records _ _ _ _ _ _ _

theorem writeIf_records (s : State) (cls : OrigClass) (t : TableId) (c : Control) : (s.writeIf cls t c).2.records = [] := by
  unfold State.writeIf
  split
  next n _ =>
    unfold State.writeWindowIf
    dsimp only
    repeat' split
    all_goals rfl
  next n _ =>
    unfold State.writeSourceIf
    dsimp only
    repeat' split
    all_goals rfl
  next => rfl

theorem offerCue_records (s : State) (cue : Cue) : (s.offerCue cue).2.records = [] := by
  unfold State.offerCue
  split <;> rfl

theorem cueAdd_records (s : State) (cls : OrigClass) (c : Control) : (s.cueAdd cls c).2.records = [] := by
  unfold State.cueAdd
  split
  · rfl
  next cue _ =>
    split
    · rfl
    · split
      · rfl
      · dsimp only
        split
        · rfl
        · exact offerCue_records s cue

/-- R154: the reply of every command but READ holds no record. -/
theorem work_records {s : State} {k : Command} (hk : k ≠ .read) (cls : OrigClass) (t : TableId) (c : Control) :
    (s.work k cls t c).2.records = [] := by
  cases k with
  | read => exact absurd rfl hk
  | write => exact write_records s cls t c
  | writeIf => exact writeIf_records s cls t c
  | commit =>
    simp only [State.work, State.commitCommand]
    split
    · rfl
    · exact offerCue_records _ _
    · rfl
  | stack =>
    simp only [State.work, State.stackCommand]
    repeat' split
    all_goals rfl
  | nudge =>
    simp only [State.work, State.nudgeCommand]
    repeat' split
    all_goals rfl
  | presetSave =>
    simp only [State.work, State.presetSave]
    split <;> rfl
  | presetLoad =>
    simp only [State.work, State.presetLoad]
    repeat' split
    all_goals rfl
  | cueAdd => exact cueAdd_records s cls c
  | cueCancel =>
    simp only [State.work, State.cueCancel]
    repeat' split
    all_goals rfl
  | cueClear => rfl
  | strobe =>
    simp only [State.work, State.strobe]
    split <;> rfl
  | highlightClear =>
    simp only [State.work, State.highlightClear]
    split <;> rfl
  | blankClear =>
    simp only [State.work, State.blankClear]
    split <;> rfl
  | eventAck => rfl
  | enumerate =>
    simp only [State.work, State.enumerate]
    split <;> rfl
  | tileReset => rfl

/-- R154: the records of a reply fit in its payload. -/
theorem judge_records_length {s : State} (hlegal : ListsLegal s) (c : Control) : (s.judge c).2.records.length ≤ 240 := by
  rcases judge_cases s c with ⟨r, he, -⟩ | ⟨k, -, -, -, he⟩ <;> rw [he]
  · exact Nat.zero_le _
  · by_cases hk : k = .read
    · subst hk
      exact read_records_length hlegal _ _ _
    · rw [work_records hk]
      exact Nat.zero_le _

/-! ### The reply -/

theorem replyBody_eq (address : Nat) (originator sequence command : Byte) {a : Answer} (h : a.records.length ≤ 240) :
    replyBody address originator sequence command a =
      [4, byte address, originator, sequence, command, byte a.result.code, byte a.count, 0, byte (a.arg1 / 256), byte a.arg1,
        byte (a.arg2 / 256), byte a.arg2, 0, 0] ++ (a.records ++ List.replicate (240 - a.records.length) 0) := by
  rw [replyBody, natBytes_two, natBytes_two, padTo, List.take_of_length_le h]
  rfl

theorem offerReply_of_lt {s : State} (body : List Byte) (h : s.ring.replies.length < 8) :
    offerReply body s = { s with ring := { s.ring with replies := s.ring.replies ++ [body] } } := if_pos h

theorem offerReply_of_le {s : State} (body : List Byte) (h : 8 ≤ s.ring.replies.length) :
    offerReply body s = latch .repliesDropped { s with ring := { s.ring with
      repliesDropped := min 65535 (s.ring.repliesDropped + 1) } } := if_neg (Nat.not_lt.mpr h)

theorem takeCommand_of_startsReset {s : State} {c : Control} (h : s.startsReset c = true) :
    s.takeCommand c = s.startTileReset c.originator c.sequence := if_pos h

theorem takeCommand_of_judge {s u : State} {c : Control} {a : Answer} (h : s.startsReset c = false) (hj : s.judge c = (u, a)) :
    s.takeCommand c = offerReply (replyBody u.cmd.address c.originator c.sequence c.command a) u := by
  rw [State.takeCommand, h, hj]
  rfl

/-- Settles O19: the reply's bytes by `replyBody_eq`, and `offerReply` on each side of a full queue. -/
theorem oneReplyPerCommand : Obligations.OneReplyPerCommand := by
  unfold Obligations.OneReplyPerCommand
  refine ⟨fun s c h => takeCommand_of_startsReset h, fun s u c a hlegal hreset hj => ?_⟩
  have hreplies : u.ring.replies = s.ring.replies := by rw [← judge_replies s c, hj]
  have hrecords : a.records.length ≤ 240 := by
    have h := judge_records_length hlegal c
    rwa [hj] at h
  have hbody := replyBody_eq u.cmd.address c.originator c.sequence c.command hrecords
  refine ⟨replyBody u.cmd.address c.originator c.sequence c.command a, ?_, hreplies, hbody, fun hlt => ?_, fun hle => ?_⟩
  · rw [hbody]
    simp
    omega
  · rw [takeCommand_of_judge hreset hj, offerReply_of_lt _ (hreplies ▸ hlt), hreplies]
  · rw [takeCommand_of_judge hreset hj, offerReply_of_le _ (hreplies ▸ hle)]

end Sys2Proof.Machine
end

section
/-! What no OPERATOR's command can change (R3, R8, R156): the pinned windows, the presets and the supervisors' tables. -/

namespace Sys2Proof.Machine

/-! ### The pinned tier -/

theorem tierOf_congr {t u : Table WinRec 32} (h : ∀ n, (u.get n).pinned = (t.get n).pinned) (p : Bool) (l : List (Fin 32)) :
    tierOf u p l = tierOf t p l := List.filter_congr fun n _ => by rw [h n]

theorem tierOf_without {t : Table WinRec 32} {n : Fin 32} {p : Bool} (h : (t.get n).pinned ≠ p) (l : List (Fin 32)) :
    tierOf t p (without n l) = tierOf t p l := by
  simp only [tierOf, without, List.filter_filter]
  refine List.filter_congr fun m _ => ?_
  by_cases hm : m = n <;> simp [hm, h]

theorem tierOf_tierOf_same (t : Table WinRec 32) (p : Bool) (l : List (Fin 32)) : tierOf t p (tierOf t p l) = tierOf t p l :=
  List.filter_eq_self.mpr fun _ hm => decide_eq_true (mem_tierOf.mp hm).2

theorem tierOf_of_other {t : Table WinRec 32} {p : Bool} {l : List (Fin 32)} (h : ∀ m ∈ l, (t.get m).pinned ≠ p) :
    tierOf t p l = [] := List.filter_eq_nil_iff.mpr fun m hm => by simpa using h m hm

/-- A window that is not pinned enters its tier behind the pinned one. -/
theorem tierOf_enterFront {t : Table WinRec 32} {n : Fin 32} (h : (t.get n).pinned = false) (l : List (Fin 32)) :
    tierOf t true (enterFront t n l) = tierOf t true l := by
  have hn : (t.get n).pinned ≠ true := by simp [h]
  have hunpinned : tierOf t true (n :: tierOf t false (without n l)) = [] := tierOf_of_other fun m hm => by
    rcases List.mem_cons.mp hm with rfl | hm
    · exact hn
    · simp [(mem_tierOf.mp hm).2]
  rw [enterFront, if_neg hn, tierOf_append, tierOf_tierOf_same, hunpinned, List.append_nil, tierOf_without hn]

/-- R3, R8, R16, R17: pinned records, their order and the presets are as they were, and no record becomes pinned. -/
structure PinnedKept (a b : Scene) : Prop where
  record : ∀ n, (a.shadow.get n).pinned = true → b.shadow.get n = a.shadow.get n
  unpinned : ∀ n, (b.shadow.get n).pinned = true → (a.shadow.get n).pinned = true
  tier : tierOf b.shadow true b.shadowList = tierOf a.shadow true a.shadowList
  presets : b.presets = a.presets

theorem PinnedKept.of_eq {a b : Scene} (hshadow : b.shadow = a.shadow) (hlist : b.shadowList = a.shadowList)
    (hpresets : b.presets = a.presets) : PinnedKept a b :=
  ⟨fun n _ => by rw [hshadow], fun n h => by rwa [hshadow] at h, by rw [hshadow, hlist], hpresets⟩

theorem PinnedKept.trans {a b c : Scene} (h : PinnedKept a b) (h' : PinnedKept b c) : PinnedKept a c where
  record n hn := (h'.record n (by rw [h.record n hn]; exact hn)).trans (h.record n hn)
  unpinned n hn := h.unpinned n (h'.unpinned n hn)
  tier := h'.tier.trans h.tier
  presets := h'.presets.trans h.presets

/-- R7: a record that is not pinned, written over one that is not. -/
theorem writeShadow_pinnedKept {a : Scene} {n : Fin 32} {r : WinRec} (hbefore : (a.shadow.get n).pinned = false)
    (hafter : r.pinned = false) : PinnedKept a (a.writeShadow n r) := by
  have hpinned : ∀ m, ((a.writeShadow n r).shadow.get m).pinned = (a.shadow.get m).pinned := fun m => by
    simp only [Scene.writeShadow, Table.get_set]
    split
    next hm => rw [hm, hbefore, hafter]
    next => rfl
  refine ⟨fun m hm => ?_, fun m hm => by rwa [hpinned] at hm, ?_, rfl⟩
  · have hne : m ≠ n := fun he => by simp [he, hbefore] at hm
    exact Table.get_set_of_ne _ _ hne
  · have hn : ((a.writeShadow n r).shadow.get n).pinned = false := by rw [hpinned, hbefore]
    rw [writeShadow_list, ← tierOf_congr hpinned]
    unfold relist
    dsimp only
    split
    · exact tierOf_without (by simp [hn]) _
    · split
      · rfl
      · exact tierOf_enterFront hn _

/-- R8: STACK of a window that is not pinned moves none that is. -/
theorem tierOf_stack {a : Scene} {n : Fin 32} (hn : (a.shadow.get n).pinned = false)
    (hnodup : a.shadowList.Nodup) (op : StackOp) :
    tierOf a.shadow true (op.apply a.shadow n a.shadowList) = tierOf a.shadow true a.shadowList := by
  have hmoved : ∀ m ∈ op.inTier n (tierOf a.shadow false a.shadowList), (a.shadow.get m).pinned ≠ true := fun m hm => by
    have hmem := (op.inTier_perm n (hnodup.filter _)).mem_iff.mp hm
    simp [(mem_tierOf.mp hmem).2]
  rw [StackOp.apply, if_neg (by simp [hn]), tierOf_append, tierOf_tierOf_same, tierOf_of_other hmoved, List.append_nil]

/-- R17: a load of a sound preset. -/
theorem loadPreset_pinnedKept {a : Scene} {p : Fin 4} (hp : (a.presets.get p).sound) : PinnedKept a (a.loadPreset p) := by
  obtain ⟨-, -, hslots⟩ := hp
  have hpinned : ∀ m, ((a.loadPreset p).shadow.get m).pinned = (a.shadow.get m).pinned := fun m => by
    simp only [Scene.loadPreset, Table.get_ofFn]
    exact loadedRecord_pinned (hslots m)
  refine ⟨fun m hm => ?_, fun m hm => by rwa [hpinned] at hm, ?_, rfl⟩
  · simp [Scene.loadPreset, loadedRecord, hm]
  · rw [tierOf_congr hpinned]
    have hsaved : ∀ m ∈ (a.presets.get p).list.filter (fun m => !((a.loadPreset p).shadow.get m).pinned),
        (a.shadow.get m).pinned ≠ true := fun m hm => by
      have hm := (List.mem_filter.mp hm).2
      rw [hpinned] at hm
      simpa using hm
    show tierOf a.shadow true (tierOf a.shadow true a.shadowList ++ _) = _
    rw [tierOf_append, tierOf_tierOf_same]
    exact (congrArg _ (tierOf_of_other hsaved)).trans (List.append_nil _)

/-! ### The commands of an OPERATOR (R156) -/

/-- R156: what an OPERATOR's command keeps. -/
structure OperatorKept (s t : State) : Prop where
  scene : PinnedKept s.scene t.scene
  origins : t.cmd.origins = s.cmd.origins
  comp : t.comp = s.comp
  triggers : t.cues.triggers = s.cues.triggers
  setup : t.timer.setup = s.timer.setup
  pendSetup : t.timer.pendSetup = s.timer.pendSetup
  address : t.cmd.address = s.cmd.address
  phase : t.ring.phase = s.ring.phase

theorem OperatorKept.trans {s t u : State} (h : OperatorKept s t) (h' : OperatorKept t u) : OperatorKept s u where
  scene := h.scene.trans h'.scene
  origins := h'.origins.trans h.origins
  comp := h'.comp.trans h.comp
  triggers := h'.triggers.trans h.triggers
  setup := h'.setup.trans h.setup
  pendSetup := h'.pendSetup.trans h.pendSetup
  address := h'.address.trans h.address
  phase := h'.phase.trans h.phase

theorem OperatorKept.of_scene {s : State} {a : Scene} (h : PinnedKept s.scene a) : OperatorKept s { s with scene := a } :=
  ⟨h, rfl, rfl, rfl, rfl, rfl, rfl, rfl⟩

theorem OperatorKept.refl (s : State) : OperatorKept s s := .of_scene (.of_eq rfl rfl rfl)

theorem OperatorKept.of_eq {s t : State} (h : t = s) : OperatorKept s t := h ▸ .refl s

/-- Work that leaves the shadow scene and the presets. -/
theorem OperatorKept.of_states {s : State} {a : Scene} (hshadow : a.shadow = s.scene.shadow)
    (hlist : a.shadowList = s.scene.shadowList) (hpresets : a.presets = s.scene.presets) :
    OperatorKept s { s with scene := a } := .of_scene (.of_eq hshadow hlist hpresets)

/-- R3: an OPERATOR writes no record that is pinned, and makes none so. -/
theorem writeWindow_operator {s s' : State} {n : Fin 32} {bytes : List Byte}
    (h : s.writeWindow .operator n bytes = .written s') : OperatorKept s s' := by
  have hrecord : s.writeRecord .operator .windows n.val bytes = .written s' := by
    rw [State.writeRecord, indexOf_val_self]
    exact h
  obtain ⟨m, r, hr, hallowed, hs'⟩ : ∃ m r, WinRec.unpack bytes = some r ∧ s.recordDenied .operator m bytes = false ∧
      s' = { s with scene := s.scene.writeShadow m r } := by
    rcases writeRecord_cases hrecord with ⟨-, m, r, -, hr, hallowed, hs'⟩ | ⟨ht, -⟩ | ⟨ht, -⟩ | ⟨ht, -⟩ | ⟨ht, -⟩ | ⟨ht, -⟩
    · exact ⟨m, r, hr, hallowed, hs'⟩
    all_goals cases ht
  have hfree : (s.scene.shadow.get m).pinned = false ∧ deliveredPinned bytes = (s.scene.shadow.get m).pinned := by
    simpa [State.recordDenied, State.shadowPinned] using hallowed
  have hpinned : r.pinned = deliveredPinned bytes := by
    obtain ⟨-, -, he⟩ := WinRec.unpack_eq_some hr
    rw [he]
    rfl
  rw [hs']
  exact .of_scene (writeShadow_pinnedKept hfree.1 (by rw [hpinned, hfree.2, hfree.1]))

theorem writeSourceRecord_operator {s s' : State} {n : Fin 32} {bytes : List Byte}
    (h : s.writeSourceRecord n bytes = .written s') : OperatorKept s s' := by
  have hkept : ∀ r, OperatorKept s (s.writeSource n r) := fun r => ⟨.of_eq rfl rfl rfl, rfl, rfl, rfl, rfl, rfl, rfl, rfl⟩
  unfold State.writeSourceRecord at h
  split at h
  · cases h
  · split at h <;> cases h
    exact hkept _

/-- R155, R156: the tables that an OPERATOR may write record by record are WINDOWS and SOURCES. -/
theorem writeRecord_operator {s s' : State} {t : TableId} {i : Nat} {bytes : List Byte} (ht : t.supervisorOnly = false)
    (h : s.writeRecord .operator t i bytes = .written s') : OperatorKept s s' := by
  cases t with
  | windows => exact writeWindow_operator h
  | sources => exact writeSourceRecord_operator h
  | setup | origins | glyphs | triggers => cases ht
  | active | stack | activeStack | sourceState | windowState | cues | counters => cases h

theorem write_operator {s : State} {t : TableId} (ht : t.supervisorOnly = false) (c : Control) :
    OperatorKept s (s.write .operator t c).1 := by
  unfold State.write
  split
  · exact .refl s
  · split
    · exact .refl s
    · split
      · exact ⟨.of_eq rfl rfl rfl, rfl, rfl, rfl, rfl, rfl, rfl, rfl⟩
      · exact writeRecords_induct (P := OperatorKept s) (fun u u' i bytes hu h => hu.trans (writeRecord_operator ht h)) _ _ _ _ s
          (.refl s)

theorem writeIf_operator (s : State) (t : TableId) (c : Control) : OperatorKept s (s.writeIf .operator t c).1 := by
  unfold State.writeIf
  split
  next n _ =>
    unfold State.writeWindowIf
    dsimp only
    split
    · exact .refl s
    · split
      · exact .refl s
      · split
        next h => exact writeWindow_operator h
        next => exact .refl s
  next n _ =>
    unfold State.writeSourceIf
    dsimp only
    split
    · exact .refl s
    · split
      next h => exact writeSourceRecord_operator h
      next => exact .refl s
  next => exact .refl s

theorem offerCue_operator (s : State) (cue : Cue) : OperatorKept s (s.offerCue cue).1 := by
  rcases offerCue_cases s cue with h | ⟨-, h⟩
  · exact .of_eq h
  · rw [h]
    exact ⟨.of_eq rfl rfl rfl, rfl, rfl, rfl, rfl, rfl, rfl, rfl⟩

theorem stackCommand_operator {s : State} (hnodup : s.scene.shadowList.Nodup) (c : Control) :
    OperatorKept s (s.stackCommand .operator c).1 := by
  unfold State.stackCommand
  split
  · exact .refl s
  next n _ =>
    split
    · exact .refl s
    next hdenied =>
      split
      · exact .refl s
      next op _ =>
        split
        · exact .refl s
        · have hn : (s.scene.shadow.get n).pinned = false := by simpa [State.shadowPinned] using hdenied
          exact .of_scene ⟨fun _ _ => rfl, fun _ h => h, tierOf_stack hn hnodup op, rfl⟩

theorem nudgeCommand_operator (s : State) (c : Control) : OperatorKept s (s.nudgeCommand .operator c).1 := by
  unfold State.nudgeCommand
  split
  · exact .refl s
  next n _ =>
    split
    · exact .refl s
    next hdenied =>
      have hn : (s.scene.shadow.get n).pinned = false := by simpa [State.shadowPinned] using hdenied
      exact .of_scene (writeShadow_pinnedKept hn hn)

theorem presetLoad_operator {s : State} (hpresets : ∀ p, (s.scene.presets.get p).sound) (c : Control) :
    OperatorKept s (s.presetLoad c).1 := by
  unfold State.presetLoad
  split
  · exact .refl s
  next p _ =>
    split
    · exact .of_scene (loadPreset_pinnedKept (hpresets p))
    · exact .refl s

theorem cueAdd_operator (s : State) (cls : OrigClass) (c : Control) : OperatorKept s (s.cueAdd cls c).1 := by
  unfold State.cueAdd
  split
  · exact .refl s
  next cue _ =>
    split
    · exact .refl s
    · split
      · exact .refl s
      · exact offerCue_operator s cue

/-- R156: the work of a command that an OPERATOR's class does not forbid. -/
theorem work_operator {s : State} (hlegal : ListsLegal s) {k : Command} {o : Option TableId} (htable : k.unknownTable o = false)
    (hclass : k.forbidden .operator o = false) (c : Control) : OperatorKept s (s.work k .operator (o.getD .setup) c).1 := by
  obtain ⟨⟨hnodup, -⟩, -, hpresets⟩ := hlegal
  cases k with
  | read =>
    simp only [State.work, State.read]
    split
    · exact .refl s
    · exact ⟨.of_eq rfl rfl rfl, rfl, rfl, rfl, rfl, rfl, rfl, rfl⟩
  | write =>
    cases o with
    | none => cases htable
    | some t => exact write_operator hclass c
  | writeIf => exact writeIf_operator s _ c
  | commit =>
    simp only [State.work, State.commitCommand]
    split
    · exact .of_states rfl rfl rfl
    · exact offerCue_operator s _
    · exact .refl s
  | stack => exact stackCommand_operator hnodup c
  | nudge => exact nudgeCommand_operator s c
  | presetSave => cases hclass
  | presetLoad => exact presetLoad_operator hpresets c
  | cueAdd => exact cueAdd_operator s .operator c
  | cueCancel =>
    simp only [State.work, State.cueCancel]
    split
    · exact .refl s
    · exact ⟨.of_eq rfl rfl rfl, rfl, rfl, rfl, rfl, rfl, rfl, rfl⟩
  | cueClear => exact ⟨.of_eq rfl rfl rfl, rfl, rfl, rfl, rfl, rfl, rfl, rfl⟩
  | strobe =>
    simp only [State.work, State.strobe]
    split
    · exact .refl s
    · exact ⟨.of_eq rfl rfl rfl, rfl, rfl, rfl, rfl, rfl, rfl, rfl⟩
  | highlightClear =>
    simp only [State.work, State.highlightClear]
    split
    · exact .refl s
    · exact .of_states rfl rfl rfl
  | blankClear =>
    simp only [State.work, State.blankClear]
    split
    · exact .refl s
    · exact .of_states rfl rfl rfl
  | eventAck => exact ⟨.of_eq rfl rfl rfl, rfl, rfl, rfl, rfl, rfl, rfl, rfl⟩
  | enumerate => cases hclass
  | tileReset => cases hclass

theorem judge_operator {s : State} (hlegal : ListsLegal s) {c : Control} (hclass : s.classOf c.originator = .operator) :
    OperatorKept s (s.judge c).1 := by
  rcases judge_cases s c with ⟨r, he, -⟩ | ⟨k, -, htable, hallowed, he⟩ <;> rw [he]
  · exact .refl s
  · rw [hclass] at hallowed ⊢
    exact work_operator hlegal htable hallowed c

theorem offerReply_operator (body : List Byte) (s : State) : OperatorKept s (offerReply body s) := by
  obtain ⟨htimer, hscene, -, -, hcomp, hcues, -⟩ := offerReply_keeps body s
  have houter : (offerReply body s).cmd.origins = s.cmd.origins ∧ (offerReply body s).cmd.address = s.cmd.address ∧
      (offerReply body s).ring.phase = s.ring.phase := by
    rcases offerReply_cases body s with ⟨-, h⟩ | ⟨-, h⟩ <;> rw [h]
    · exact ⟨rfl, rfl, rfl⟩
    · simp
  obtain ⟨horigins, haddress, hphase⟩ := houter
  exact ⟨.of_eq (by rw [hscene]) (by rw [hscene]) (by rw [hscene]), horigins, hcomp, by rw [hcues], by rw [htimer],
    by rw [htimer], haddress, hphase⟩

/-- Settles O21: the judgement by `judge_operator`, the reply by `offerReply_operator`. -/
theorem operatorsKeepOut : Obligations.OperatorsKeepOut := by
  unfold Obligations.OperatorsKeepOut
  intro s c hlegal hclass
  have hreset : ¬s.startsReset c = true := by simp [State.startsReset, hclass]
  rcases takeCommand_cases s c with ⟨h, -⟩ | ⟨-, h⟩
  · exact absurd h hreset
  · obtain ⟨⟨hrecord, hunpinned, htier, hpresets⟩, horigins, hcomp, htriggers, hsetup, hpend, haddress, hphase⟩ :=
      (judge_operator hlegal hclass).trans
        (offerReply_operator (replyBody (s.judge c).1.cmd.address c.originator c.sequence c.command (s.judge c).2) (s.judge c).1)
    rw [h]
    exact ⟨hrecord, hunpinned, htier, hpresets, horigins, hcomp, htriggers, hsetup, hpend, haddress, hphase⟩

end Sys2Proof.Machine
end

section
/-! Records read back the bytes that were delivered (R167, Tables 11-4 and 11-5). -/

namespace Sys2Proof.Machine

/-! ### Reading a record part by part -/

/-- The bytes of a part of a record, which stands at byte `i`, are those that `f` gives. -/
def Spells (f : Nat → Byte) (i : Nat) (part : List Byte) : Prop := ∀ j, j < part.length → byteAt part j = f (i + j)

theorem Spells.byteAt {f : Nat → Byte} {r : List Byte} (h : Spells f 0 r) {i : Nat} (hi : i < r.length) : byteAt r i = f i := by
  rw [h i hi, Nat.zero_add]

theorem Spells.nil (f : Nat → Byte) (i : Nat) : Spells f i [] := fun _ hj => absurd hj (Nat.not_lt_zero _)

theorem Spells.cons {f : Nat → Byte} {i : Nat} {b : Byte} {l : List Byte} (hb : b = f i) (hl : Spells f (i + 1) l) :
    Spells f i (b :: l) := by
  intro j hj
  cases j with
  | zero => exact hb
  | succ j =>
    have hij : i + (j + 1) = i + 1 + j := by omega
    rw [hij, ← hl j (by simpa using hj)]
    rfl

theorem Spells.append {f : Nat → Byte} {i : Nat} {l m : List Byte} (hl : Spells f i l) (hm : Spells f (i + l.length) m) :
    Spells f i (l ++ m) := by
  intro j hj
  rcases Nat.lt_or_ge j l.length with hlt | hle
  · rw [byteAt_append_left hlt, hl j hlt]
  · have hij : i + j = i + l.length + (j - l.length) := by omega
    rw [byteAt_append_right hle, hij]
    exact hm _ (by rw [List.length_append] at hj; omega)

/-! ### Fields written back -/

theorem byte_toNat_self (b : Byte) : byte b.toNat = b := BitVec.eq_of_toNat_eq (byte_toNat_of_lt b.isLt)

theorem natBytes_field {l : List Byte} {i k : Nat} (h : i + k ≤ l.length) : natBytes k (field l i k) = (l.drop i).take k := by
  have hlen : ((l.drop i).take k).length = k := by
    rw [List.length_take, List.length_drop]
    omega
  have hbytes := natBytes_bytesNat ((l.drop i).take k)
  rwa [hlen] at hbytes

theorem byteAt_take_drop {l : List Byte} {i j k : Nat} (h : j < k) : byteAt ((l.drop i).take k) j = byteAt l (i + j) := by
  simp [byteAt, List.getD_eq_getElem?_getD, h]

/-- A field written back where it was read. -/
theorem Spells.field {f : Nat → Byte} {l : List Byte} {i k : Nat} (h : i + k ≤ l.length)
    (hf : ∀ j, j < k → f (i + j) = Machine.byteAt l (i + j)) : Spells f i (natBytes k (Machine.field l i k)) := by
  intro j hj
  rw [natBytes_length] at hj
  rw [natBytes_field h, byteAt_take_drop hj, hf j hj]

theorem field_lt {l : List Byte} {i k : Nat} : field l i k < 256 ^ k := by
  refine lt_of_lt_of_le (bytesNat_lt _) (Nat.pow_le_pow_right (by decide) ?_)
  rw [List.length_take]
  exact Nat.min_le_left _ _

/-! ### Packed fields (R167) -/

/-- The first `m` of `n` packed fields are the high bits. -/
theorem packFields_unpackField (w n v m : Nat) (h : m ≤ n) :
    packFields w ((List.range m).map (unpackField w n v)) = v / 2 ^ (w * (n - m)) % 2 ^ (w * m) := by
  induction m with
  | zero => simp [packFields, Nat.mod_one]
  | succ m ih =>
    have ih := ih (by omega)
    have hsplit : w * (n - m) = w * (n - 1 - m) + w := by
      rw [← Nat.mul_succ]
      congr 1
      omega
    have hquot : v / 2 ^ (w * (n - m)) = v / 2 ^ (w * (n - 1 - m)) / 2 ^ w := by
      rw [hsplit, Nat.pow_add, Nat.div_div_eq_div_mul]
    unfold packFields at ih ⊢
    rw [List.range_succ, List.map_append, List.foldl_append, ih]
    simp only [List.map_cons, List.map_nil, List.foldl_cons, List.foldl_nil, unpackField, Nat.mod_mod]
    rw [hquot, Nat.sub_right_comm n 1 m, Nat.mul_succ, Nat.add_comm (w * m) w, Nat.pow_add, Nat.mod_mul]
    have hsub : n - (m + 1) = n - m - 1 := by omega
    rw [hsub]
    ring

theorem packFields_all {w n v : Nat} (h : v < 2 ^ (w * n)) : packFields w ((List.range n).map (unpackField w n v)) = v := by
  rw [packFields_unpackField w n v n le_rfl, Nat.sub_self, Nat.mul_zero, Nat.pow_zero, Nat.div_one, Nat.mod_eq_of_lt h]

/-- The entries of a table of indices, each unpacked from its field. -/
theorem packFields_table {w n k v : Nat} [NeZero k] (hk : k = 2 ^ w) (h : v < 2 ^ (w * n)) :
    packFields w (((Table.ofFn fun i : Fin n => indexOf k (unpackField w n v i.val)).rows).map Fin.val) = v := by
  have hrows : ((Table.ofFn fun i : Fin n => indexOf k (unpackField w n v i.val)).rows).map Fin.val =
      (List.range n).map (unpackField w n v) := by
    refine List.ext_getElem (by simp [Table.ofFn]) fun i hi _ => ?_
    simp only [Table.ofFn, List.getElem_map, List.getElem_ofFn, List.getElem_range, indexOf_val, hk, unpackField, Nat.mod_mod]
  rw [hrows, packFields_all h]

/-! ### Colours (R167) -/

theorem extractLsb'_ofNat_8 (w k : Nat) (hk : k + 8 ≤ 32) : (BitVec.ofNat 32 w).extractLsb' k 8 = byte (w / 2 ^ k) := by
  refine BitVec.eq_of_getLsbD_eq fun i hi => ?_
  rw [byte, BitVec.getLsbD_extractLsb', BitVec.getLsbD_ofNat, BitVec.getLsbD_ofNat, Nat.testBit_div_two_pow]
  simp [hi, show k + i < 32 by omega, Nat.add_comm]

theorem wordBytes_ofNat (n : Nat) : wordBytes (BitVec.ofNat 32 n) = natBytes 4 n := by
  rw [natBytes_four, wordBytes, extractLsb'_ofNat_8 n 24 (by decide), extractLsb'_ofNat_8 n 16 (by decide),
    extractLsb'_ofNat_8 n 8 (by decide), extractLsb'_ofNat_8 n 0 (by decide), Nat.pow_zero, Nat.div_one]
  rfl

/-- A colour's word without the two spare bits. -/
theorem ofWord_word (w : BitVec 32) : (Colour.ofWord w).word = w &&& 0x3FFFFFFF#32 := by
  have hmask : ∀ i : Fin 32, (0x3FFFFFFF#32).getLsbD i.val = decide (i.val < 30) := by decide
  refine BitVec.eq_of_getLsbD_eq fun i hi => ?_
  have hmask : (0x3FFFFFFF#32).getLsbD i = decide (i < 30) := hmask ⟨i, hi⟩
  rw [BitVec.getLsbD_and, hmask]
  simp only [Colour.word, Colour.ofWord, BitVec.getLsbD_cast, BitVec.getLsbD_append, BitVec.getLsbD_extractLsb',
    BitVec.getLsbD_zero]
  rcases Nat.lt_or_ge i 10 with h10 | h10
  · simp [h10, show i < 30 by omega]
  · rcases Nat.lt_or_ge i 20 with h20 | h20
    · simp [show ¬i < 10 by omega, show i - 10 < 10 by omega, show i < 30 by omega, show 10 + (i - 10) = i by omega]
    · by_cases h30 : i < 30
      · simp [show ¬i < 10 by omega, show ¬i - 10 < 10 by omega, show i - 10 - 10 < 10 by omega, h30,
          show 20 + (i - 10 - 10) = i by omega]
      · simp [show ¬i < 10 by omega, show ¬i - 10 < 10 by omega, show ¬i - 10 - 10 < 10 by omega, h30]

theorem wordBytes_and (w m : BitVec 32) : wordBytes (w &&& m) = List.zipWith (· &&& ·) (wordBytes w) (wordBytes m) := by
  simp only [wordBytes, BitVec.extractLsb'_and, List.zipWith_cons_cons, List.zipWith_nil_left]

theorem eq_bytes_four {l : List Byte} (h : l.length = 4) : l = [byteAt l 0, byteAt l 1, byteAt l 2, byteAt l 3] := by
  match l, h with
  | [_, _, _, _], _ => rfl

theorem colourBytes_colourAt {l : List Byte} {i : Nat} (h : i + 4 ≤ l.length) :
    colourBytes (colourAt l i) = [byteAt l i &&& 0x3F, byteAt l (i + 1), byteAt l (i + 2), byteAt l (i + 3)] := by
  have hbytes : natBytes 4 (field l i 4) = [byteAt l i, byteAt l (i + 1), byteAt l (i + 2), byteAt l (i + 3)] := by
    rw [natBytes_field h, eq_bytes_four (l := (l.drop i).take 4) (by simp; omega)]
    rw [byteAt_take_drop (by decide), byteAt_take_drop (by decide), byteAt_take_drop (by decide),
      byteAt_take_drop (by decide), Nat.add_zero]
  have hmask : wordBytes 0x3FFFFFFF#32 = [0x3F, 0xFF, 0xFF, 0xFF] := by decide
  have hfull : ∀ b : Byte, b &&& 0xFF = b := fun b => BitVec.and_allOnes
  rw [colourBytes, colourAt, ofWord_word, wordBytes_and, wordBytes_ofNat, hbytes, hmask]
  simp only [List.zipWith_cons_cons, List.zipWith_nil_left, hfull]

/-- A colour written back where it was read. -/
theorem Spells.colour {f : Nat → Byte} {l : List Byte} {i : Nat} (h : i + 4 ≤ l.length) (h0 : f i = Machine.byteAt l i &&& 0x3F)
    (h1 : f (i + 1) = Machine.byteAt l (i + 1)) (h2 : f (i + 2) = Machine.byteAt l (i + 2))
    (h3 : f (i + 3) = Machine.byteAt l (i + 3)) : Spells f i (colourBytes (colourAt l i)) := by
  rw [colourBytes_colourAt h]
  exact .cons h0.symm (.cons h1.symm (.cons h2.symm (.cons h3.symm (.nil _ _))))

/-! ### Codes written back (Table 11-3) -/

theorem DisplayMode.code_of_ofCode {n : Nat} {m : DisplayMode} (h : DisplayMode.ofCode n = some m) : m.code = n := by
  match n, h with
  | 0, h | 1, h | 2, h | 3, h | 4, h => cases h; rfl

theorem PixFormat.code_of_ofCode {n : Nat} {f : PixFormat} (h : PixFormat.ofCode n = some f) : f.code = n := by
  match n, h with
  | 0, h | 1, h | 2, h => cases h; rfl

theorem EdgeMode.code_of_ofCode {n : Nat} {e : EdgeMode} (h : EdgeMode.ofCode n = some e) : e.code = n := by
  match n, h with
  | 0, h | 1, h | 2, h | 3, h => cases h; rfl

/-! ### Window records (Table 11-4) -/

/-- R167, R6: byte `i` of a window record that was delivered as `l` and stands with revision `v`. -/
def windowReadBack (l : List Byte) (v i : Nat) : Byte :=
  if i = 0 then byteAt l 0 &&& 0xFC
  else if i = 5 then BitVec.ofNat 8 (v / 256)
  else if i = 6 then BitVec.ofNat 8 v
  else if i = 28 ∨ i = 32 ∨ i = 36 ∨ i = 40 ∨ i = 44 ∨ i = 48 then byteAt l i &&& 0x3F
  else byteAt l i

/-- Table 11-4: a byte of a packed field, a number or a caption stands as it was delivered. -/
theorem windowReadBack_plain {l : List Byte} {i : Nat} (v : Nat) (h : 7 ≤ i ∧ i < 28 ∨ 52 ≤ i) :
    windowReadBack l v i = byteAt l i := by
  rw [windowReadBack, if_neg (by omega), if_neg (by omega), if_neg (by omega), if_neg (by omega)]

/-- Table 11-4: the flags of byte 0; its two low bits are ignored. -/
theorem windowFlags_readBack (b : Byte) :
    byte (128 * (b.getLsbD 7).toNat + 64 * (b.getLsbD 6).toNat +
      (if (if b.getLsbD 5 = true then LossMode.fill else .hold) = .fill then 32 else 0) +
      (if (if b.getLsbD 4 = true then CaptionPlace.bottom else .top) = .bottom then 16 else 0) + 4 * (b.toNat / 4 % 4 % 4)) =
    b &&& 0xFC := by
  revert b
  decide

theorem crop_readBack {v : Nat} (h : v < 256 ^ 6) :
    packFields 12 [unpackField 12 4 v 0, unpackField 12 4 v 1, unpackField 12 4 v 2 + 1 - 1, unpackField 12 4 v 3 + 1 - 1] = v :=
  packFields_all (w := 12) (n := 4) h

theorem tour_readBack {v : Nat} (h : v < 256 ^ 5) :
    packFields 5 ((Table.ofFn fun i : Fin 8 => indexOf 32 (unpackField 5 8 v i.val)).rows.map Fin.val) = v :=
  packFields_table (w := 5) rfl (lt_of_lt_of_eq h (by norm_num))

theorem caption_readBack {v : Nat} (h : v < 256 ^ 28) :
    packFields 7 ((Table.ofFn fun i : Fin 32 => indexOf 128 (unpackField 7 32 v i.val)).rows.map Fin.val) = v :=
  packFields_table (w := 7) rfl (lt_of_lt_of_eq h (by norm_num))

theorem highLow_readBack (b : Byte) : byte (16 * (b.toNat / 16) + b.toNat % 16 % 16) = b := by
  rw [Nat.mod_mod, Nat.div_add_mod, byte_toNat_self]

theorem windowRecord_readBack {l : List Byte} (hl : l.length = 80) {r : WinRec} (h : WinRec.unpack l = some r) (v : Nat) :
    Spells (windowReadBack l v) 0 ({ r with revision := v } : WinRec).pack := by
  obtain ⟨hmode, hsource, hr⟩ := WinRec.unpack_eq_some h
  have hmode := DisplayMode.code_of_ofCode hmode
  have hsource := index?_eq_some hsource
  have hplain : ∀ i, 7 ≤ i ∧ i < 28 ∨ 52 ≤ i → windowReadBack l v i = byteAt l i := fun i hi => windowReadBack_plain v hi
  rw [hr]
  simp only [WinRec.pack, hmode, hsource, tour_readBack field_lt, caption_readBack field_lt, crop_readBack field_lt,
    natBytes_two v, windowFlags_readBack, highLow_readBack, byte_toNat_self, List.append_assoc]
  have hfield : ∀ i k, i + k ≤ 80 → (∀ j, j < k → 7 ≤ i + j ∧ i + j < 28 ∨ 52 ≤ i + j) →
      Spells (windowReadBack l v) i (natBytes k (field l i k)) := fun i k hik hj =>
    .field (hik.trans_eq hl.symm) fun j hjk => hplain _ (hj j hjk)
  have hcolour : ∀ i, i = 28 ∨ i = 32 ∨ i = 36 ∨ i = 40 ∨ i = 44 ∨ i = 48 →
      Spells (windowReadBack l v) i (colourBytes (colourAt l i)) := fun i hi => by
    rcases hi with rfl | rfl | rfl | rfl | rfl | rfl <;> exact .colour (by omega) rfl rfl rfl rfl
  refine .append (.cons rfl (.cons rfl (.cons rfl (.cons rfl (.cons rfl (.nil _ _)))))) (.append (.cons rfl (.cons rfl (.nil _ _)))
    (.append (hfield 7 2 (by omega) (by omega)) (.append (hfield 9 2 (by omega) (by omega))
    (.append (hfield 11 2 (by omega) (by omega)) (.append (hfield 13 2 (by omega) (by omega))
    (.append (hfield 15 2 (by omega) (by omega)) (.append (hfield 17 6 (by omega) (by omega))
    (.append (hfield 23 5 (by omega) (by omega)) (.append (hcolour 28 (by omega)) (.append (hcolour 32 (by omega))
    (.append (hcolour 36 (by omega)) (.append (hcolour 40 (by omega)) (.append (hcolour 44 (by omega))
    (.append (hcolour 48 (by omega)) (hfield 52 28 (by omega) (by omega))))))))))))))))

/-! ### Source and setup records (Table 11-5) -/

/-- R167, R46: byte `i` of a source record that was delivered as `l` and stands with revision `v`. -/
def sourceReadBack (l : List Byte) (v i : Nat) : Byte :=
  if i = 10 then BitVec.ofNat 8 (v / 256) else if i = 11 then BitVec.ofNat 8 v else byteAt l i

theorem boolByte_of_boolOfCode {b : Byte} {e : Bool} (h : boolOfCode b.toNat = some e) : boolByte e = b :=
  (eq_yesNo_of_boolOfCode h).symm

theorem sourceRecord_readBack {l : List Byte} (hl : l.length = 12) {r : SourceRec} (h : SourceRec.unpack l = some r) (v : Nat) :
    Spells (sourceReadBack l v) 0 ({ r with revision := v } : SourceRec).pack := by
  obtain ⟨henabled, hformat, hr⟩ := SourceRec.unpack_eq_some h
  have henabled := boolByte_of_boolOfCode henabled
  have hformat := PixFormat.code_of_ofCode hformat
  have hfield : ∀ i, i + 2 ≤ 10 → Spells (sourceReadBack l v) i (natBytes 2 (field l i 2)) := fun i hi =>
    .field (by omega) fun j hj => by rw [sourceReadBack, if_neg (by omega), if_neg (by omega)]
  rw [hr]
  simp only [SourceRec.pack, henabled, hformat, byte_toNat_self, natBytes_two v, List.append_assoc]
  exact .append (.cons rfl (.cons rfl (.nil _ _))) (.append (hfield 2 (by omega)) (.append (hfield 4 (by omega))
    (.append (.cons rfl (.cons rfl (.nil _ _))) (.append (hfield 8 (by omega)) (.cons rfl (.cons rfl (.nil _ _)))))))

/-- R167, R123, R158, R165: byte `i` of a setup record that was delivered as `l`, read back with the address in force. -/
def setupReadBack (l : List Byte) (address i : Nat) : Byte :=
  if i = 0 then BitVec.ofNat 8 address
  else if i = 5 then 0
  else if i = 24 then byteAt l i &&& 0x0F
  else if i = 26 then byteAt l i &&& 0x3F
  else byteAt l i

/-- R165: the positions of the event mask that name no kind read as 0. -/
theorem eventMask_readBack {l : List Byte} (hl : 26 ≤ l.length) :
    natBytes 2 (BitVec.ofNat 12 (field l 24 2)).toNat = [byteAt l 24 &&& 0x0F, byteAt l 25] := by
  have hlow : ∀ b : Byte, b &&& 0x0F = byte (b.toNat % 16) := by decide
  have hfield : field l 24 2 = 256 * (byteAt l 24).toNat + (byteAt l 25).toNat := field_two (by omega)
  have hlt : (byteAt l 25).toNat < 256 := (byteAt l 25).isLt
  have hhigh : (256 * (byteAt l 24).toNat + (byteAt l 25).toNat) % 2 ^ 12 / 256 = (byteAt l 24).toNat % 16 := by omega
  rw [natBytes_two, BitVec.toNat_ofNat, hfield, hlow, hhigh]
  refine congrArg (fun b => [_, b]) (BitVec.eq_of_toNat_eq ?_)
  rw [byte_toNat]
  omega

theorem setupRecord_readBack {l : List Byte} (hl : l.length = 30) (address : Nat) :
    Spells (setupReadBack l address) 0 ((Setup.unpack l).pack address) := by
  have hfield : ∀ i, 6 ≤ i → i + 2 ≤ 24 → Spells (setupReadBack l address) i (natBytes 2 (field l i 2)) := fun i hi hle =>
    .field (by omega) fun j hj => by
      rw [setupReadBack, if_neg (by omega), if_neg (by omega), if_neg (by omega), if_neg (by omega)]
  have hcolour : Spells (setupReadBack l address) 26 (colourBytes (colourAt l 26)) := .colour (by omega) rfl rfl rfl rfl
  simp only [Setup.pack, Setup.unpack, byte_toNat_self, eventMask_readBack (l := l) (by omega), List.append_assoc]
  exact .append (.cons rfl (.cons rfl (.cons rfl (.cons rfl (.cons rfl (.cons rfl (.nil _ _)))))))
    (.append (hfield 6 (by omega) (by omega)) (.append (hfield 8 (by omega) (by omega))
    (.append (hfield 10 (by omega) (by omega)) (.append (hfield 12 (by omega) (by omega))
    (.append (hfield 14 (by omega) (by omega)) (.append (hfield 16 (by omega) (by omega))
    (.append (hfield 18 (by omega) (by omega)) (.append (hfield 20 (by omega) (by omega))
    (.append (hfield 22 (by omega) (by omega)) (.append (.cons rfl (.cons rfl (.nil _ _)))
    hcolour))))))))))

/-! ### Glyphs, triggers and cues (Table 11-5) -/

/-- R111: a row of a glyph keeps its 12 columns; the four low bits are ignored. -/
theorem glyphRow_readBack {l : List Byte} {i : Nat} (h : i + 2 ≤ l.length) :
    natBytes 2 (16 * (BitVec.ofNat 12 (field l i 2 / 16)).toNat) = [byteAt l i, byteAt l (i + 1) &&& 0xF0] := by
  have hhigh : ∀ b : Byte, b &&& 0xF0 = byte (16 * (b.toNat / 16)) := by decide
  have hfield : field l i 2 = 256 * (byteAt l i).toNat + (byteAt l (i + 1)).toNat := field_two h
  have hlt : (byteAt l i).toNat < 256 := (byteAt l i).isLt
  have hlt' : (byteAt l (i + 1)).toNat < 256 := (byteAt l (i + 1)).isLt
  have hrow : 16 * (BitVec.ofNat 12 (field l i 2 / 16)).toNat =
      256 * (byteAt l i).toNat + 16 * ((byteAt l (i + 1)).toNat / 16) := by
    rw [BitVec.toNat_ofNat, hfield]
    omega
  have hfirst : (256 * (byteAt l i).toNat + 16 * ((byteAt l (i + 1)).toNat / 16)) / 256 = (byteAt l i).toNat := by omega
  rw [natBytes_two, hrow, hfirst, byte_toNat_self, hhigh]
  refine congrArg (fun b => [byteAt l i, b]) (BitVec.eq_of_toNat_eq ?_)
  rw [byte_toNat, byte_toNat]
  omega

theorem glyph_readBack {l : List Byte} (hl : l.length = 32) {g : Glyph}
    (hg : g = Table.ofFn fun row => BitVec.ofNat 12 (field l (2 * row.val) 2 / 16)) {i : Nat} (hi : i < 32) :
    byteAt (glyphPack g) i = if i % 2 = 1 then byteAt l i &&& 0xF0 else byteAt l i := by
  have hrow : g.rows[i / 2]? = some (BitVec.ofNat 12 (field l (2 * (i / 2)) 2 / 16)) := by
    have hlt : i / 2 < 16 := by omega
    rw [hg, Table.ofFn, List.getElem?_ofFn]
    exact dif_pos hlt
  have hbyte : byteAt (glyphPack g) (2 * (i / 2) + i % 2) = byteAt
      (natBytes 2 (16 * (BitVec.ofNat 12 (field l (2 * (i / 2)) 2 / 16)).toNat)) (i % 2) :=
    byteAt_flatMap (f := fun row : BitVec 12 => natBytes 2 (16 * row.toNat)) (fun _ => natBytes_length _ _) hrow (by omega)
  rw [Nat.div_add_mod] at hbyte
  rw [hbyte, glyphRow_readBack (by omega)]
  rcases Nat.mod_two_eq_zero_or_one i with h | h
  · have hpos : 2 * (i / 2) = i := by omega
    rw [h, hpos]
    rfl
  · have hpos : 2 * (i / 2) + 1 = i := by omega
    rw [h, hpos]
    rfl

theorem trigger_readBack {l : List Byte} {r : Trigger} (h : Trigger.unpack l = some r) (strobe : Bool) :
    Spells (fun i => if i = 6 then yesNo strobe else if i = 7 then 0 else byteAt l i) 0 (r.pack strobe) := by
  obtain ⟨hinvert, hedge, haction, hr⟩ := Trigger.unpack_eq_some h
  rw [hr]
  simp only [Trigger.pack, boolByte_of_boolOfCode hinvert, EdgeMode.code_of_ofCode hedge, Action.code_of_ofCode haction,
    byte_toNat_self]
  exact .cons rfl (.cons rfl (.cons rfl (.cons rfl (.cons rfl (.cons rfl (.cons rfl (.cons rfl (.nil _ _))))))))

theorem cue_readBack {l : List Byte} (hl : l.length = 12) {r : Cue} (h : Cue.unpack l = some r) :
    Spells (fun i => if i = 5 then 0 else byteAt l i) 0 r.pack := by
  obtain ⟨haction, hmode, hr⟩ := Cue.unpack_eq_some h
  have htarget : (BitVec.ofNat 32 (field l 8 4)).toNat = field l 8 4 := by
    exact Nat.mod_eq_of_lt (field_lt (l := l) (i := 8) (k := 4))
  have hfield : ∀ i k, 6 ≤ i → i + k ≤ 12 →
      Spells (fun i => if i = 5 then 0 else byteAt l i) i (natBytes k (field l i k)) := fun i k hi hk =>
    .field (by omega) fun j hj => if_neg (by omega)
  rw [hr]
  simp only [Cue.pack, Action.code_of_ofCode haction, CueMode.code_of_ofCode hmode, byte_toNat_self, htarget, List.append_assoc]
  exact .append (.cons rfl (.cons rfl (.cons rfl (.cons rfl (.cons rfl (.cons rfl (.nil _ _)))))))
    (.append (hfield 6 2 (by omega) (by omega)) (hfield 8 4 (by omega) (by omega)))

/-! ### The obligation -/

theorem SourceRec.pack_length (r : SourceRec) : r.pack.length = 12 := by simp [SourceRec.pack]

theorem Setup.pack_length (address : Nat) (r : Setup) : (r.pack address).length = 30 := by
  simp [Setup.pack, colourBytes_length]

/-- Settles O23: each record part by part. -/
theorem recordsReadBack : Obligations.RecordsReadBack := by
  unfold Obligations.RecordsReadBack
  refine ⟨fun s n bytes r v i b hl hr hi hb => ?_, fun s n bytes r v i hl hr hi hs => ?_, fun s bytes i hl hi hs => ?_,
    fun s i => ?_, fun s n bytes i hl hi hs => ?_, fun s n bytes i hl hi hs => ?_, fun s n bytes c i hl hi hc hs => ?_⟩
  · have hbyte : byteAt ({ r with revision := v } : WinRec).pack i = b :=
      ((windowRecord_readBack hl hr v).byteAt (by rw [WinRec.pack_length]; exact hi)).trans hb.symm
    simp only [State.record, indexOf_val_self]
    exact ⟨fun hs => by rw [hs]; exact hbyte, fun hs => by rw [hs]; exact hbyte⟩
  · simp only [State.record, indexOf_val_self, hs]
    exact (sourceRecord_readBack hl hr v).byteAt (by rw [SourceRec.pack_length]; exact hi)
  · have hstands : s.timer.pendSetup.getD s.timer.setup = Setup.unpack bytes := by
      rcases hs with hs | ⟨hnone, hs⟩
      · rw [hs]
        rfl
      · rw [hnone]
        exact hs
    simp only [State.record, hstands]
    exact (setupRecord_readBack hl s.cmd.address).byteAt (by rw [Setup.pack_length]; exact hi)
  · simp only [State.record, indexOf_val_self]
    cases s.cmd.origins.get i <;> rfl
  · simp only [State.record, indexOf_val_self]
    exact glyph_readBack hl hs hi
  · simp only [State.record, indexOf_val_self]
    exact (trigger_readBack hs (s.cues.strobes.get n)).byteAt hi
  · simp only [State.record, hs, Option.elim_some]
    exact (cue_readBack hl hc).byteAt (by rw [Cue.pack_length]; exact hi)

end Sys2Proof.Machine
end
